-- ==== Sys2Proof/Word.lean ====
section
/-! DEFINITION. The widths of the hardware: the 8-bit frame of the tape and the 18-bit word (R6, R90, R93). -/

namespace Sys2Proof

/-- One byte of the command port. -/
abbrev Byte := BitVec 8

/-- A frame: one tape byte (R90; `FRAME_W` of R6). -/
abbrev Frame := BitVec 8

/-- The data bits of a binary frame (`DATA_W` of R6). -/
abbrev Data6 := BitVec 6

/-- A word: an unsigned 18-bit value (R93; `WORD_W` of R6). -/
abbrev Word := BitVec 18

/-- The raw tempo parameter of a tempo word (R97). -/
abbrev Tempo15 := BitVec 15

end Sys2Proof
end

