-- ==== Sys2Proof/Config.lean ====
section
/-! DEFINITION. The constants BOC fixes (R6), the shape of the note layout record (R99, R162) and the model's free
values. The parameters whose values the spec chose (R8) stand in Machine/Params.lean. -/

namespace Sys2Proof.Config

/-- `SEP`, 0600000: the measure/bar separator word (R6, R95). -/
def sep : Word := 0x30000#18

/-- `TEMPO_TAG`, 0700000: the tag of a tempo word (R6, R96). -/
def tempoTag : Word := 0x38000#18

/-- `TEMPO_MASK`, 0077777: the mask of the tempo parameter (R6, R97). -/
def tempoMask : Word := 0x7FFF#18

/-- `VOICES`, 4: the voices of a full tape (R6). -/
def voices : Nat := 4

/-- `GAP_LEN_DEFAULT`, 18: the default inter-voice gap of the Tweak run (R6, R50). -/
def gapLenDefault : Nat := 18

/-- `BIN_FLAG`, 0200: the frame bit that tells binary from blank (R6, R90). -/
def binFlag : Frame := 0x80#8

/-- `NoteLayout`: the lowest bit position of each note field, kept in one record so that a correction changes one
definition (R99, R162). The articulation code is composed of two 2-bit groups. -/
structure NoteLayout where
  duration : Nat
  pitch : Nat
  artLow : Nat
  artHigh : Nat
  triplet : Nat
  hi : Nat
  deriving DecidableEq, Repr

/-- FREE VALUE. The index `FINFO.widx` holds after a fault raised by a `verify` or `articulationName` that the host issues
on its own: the field is present for every kind of fault, but which word it names is said only for words read from the
tape (R280, R289). Nothing is known of the index (log 15). -/
opaque openWordIndex : Nat → Nat

/-- FREE VALUE. The word `FINFO.word` holds after an InvalidArticulation raised by an `articulationName` issued on its own:
the field is present for this kind, but the operand is a code and no note word is at hand (R276, R280). Nothing is known of
the word (log 15). -/
opaque openNoteWord : Nat → Word

end Sys2Proof.Config
end

