-- ==== Sys2Proof/Syntax.lean ====
section
/-! DEFINITION. The operations and tape items of CORE: one constructor of `Instr` for each row of
spec/opcode_table.json, with the types their operands and results need. -/

namespace Sys2Proof

/-- `MODE`: the read-only Decoder run or the re-emitting Tweak run (R48). -/
inductive Mode where
  | decode
  | tweak
  deriving DecidableEq, Repr

/-- The class of a content word by its bit pattern (R98). -/
inductive WordClass where
  | sep
  | tempo
  | note
  deriving DecidableEq, Repr

/-- A Note: the extracted fields of a note word (R13, R163). -/
structure Note where
  pitch : BitVec 6
  duration : BitVec 7
  art : BitVec 4
  triplet : BitVec 1
  hi : BitVec 2
  deriving DecidableEq, Repr

/-- The five articulation names (R166). -/
inductive Articulation where
  | normal
  | quarter
  | half
  | staccato
  | legato
  deriving DecidableEq, Repr

/-- The result of `pitchInfo`: a rest, its value kept, or pitch class and octave (R165). -/
inductive PitchInfo where
  | rest (pitch : BitVec 6)
  | pitched (notePitch octave semitone : Nat)
  deriving DecidableEq, Repr

/-- Where in a block a word stands; a word's meaning is fixed by its position or by its pattern (R94, R101). -/
inductive WordPos where
  | notesCount
  | notesContent
  | notesChecksum
  | barsCount
  | barsContent
  | barsChecksum
  deriving DecidableEq, Repr

/-- What an instruction is decoded from: the operations of the command port (R110), a frame of the tape (R90), or a word
of the tape at a position of a block (R94). -/
inductive Source where
  | port
  | frame
  | word (pos : WordPos)
  deriving DecidableEq, Repr

/-- One constructor per row of spec/opcode_table.json, in the table's order: 28 operations (R110), 2 frame kinds (R90),
3 word classes (R98) and 3 positional words (R94). -/
inductive Instr where
  | coreReset
  | setMode (mode : Mode)
  | setTempo (en : Bool) (tempo15 : Tempo15)
  | setGapLen (n : Nat)
  | start
  | fuStep
  | fuEnd
  | readWord
  | peekGap
  | decodeFrame (f0 f1 f2 : Frame)
  | add (sum word : Word)
  | verify (expected computed : Word)
  | classify (w : Word)
  | decode (w : Word)
  | pitchInfo (pitch : BitVec 6)
  | articulationName (code : BitVec 4)
  | decodeTempo (w : Word)
  | encodeTempo (bpm15 : Nat)
  | encodeNote (pitch : BitVec 6) (duration : BitVec 7) (art : BitVec 4) (triplet : BitVec 1) (hi : BitVec 2)
  | parseNotesBlock
  | parseBarsBlock
  | parseTempoSubstitution
  | barSlice (k : Word)
  | writeWord (w : Word)
  | writeGap (n : Nat)
  | encodeFrame (w : Word)
  | runDecoder
  | runTweak
  | bin (bit6 : BitVec 1) (data : Data6)
  | blank (low : BitVec 7)
  | sep
  | tempo (tempo15 : Tempo15)
  | note (hi : BitVec 2) (triplet : BitVec 1) (artMid : BitVec 2) (shared : BitVec 1) (pitchLow : BitVec 5)
      (duration : BitVec 7)
  | count (n : Word)
  | checksum (c : Word)
  | index (k : Word)
  deriving DecidableEq, Repr

end Sys2Proof
end

