-- ==== Sys2Proof/WellFormed.lean ====
section
/-! DEFINITION. The checks on an instruction as syntax. Every operand's width is in its type; what is left are the two
tape items whose bit pattern belongs to another row. -/

namespace Sys2Proof

/-- A NOTE row is a word that is neither `SEP` (`hi` 11 and every other bit clear) nor a tempo word (`hi` 11 and bit 15
set) (R98, R99). -/
def noteFieldsOk (hi : BitVec 2) (triplet : BitVec 1) (artMid : BitVec 2) (shared : BitVec 1) (pitchLow : BitVec 5)
    (duration : BitVec 7) : Bool :=
  !(hi == 3#2 && triplet == 1#1) &&
    !(hi == 3#2 && triplet == 0#1 && artMid == 0#2 && shared == 0#1 && pitchLow == 0#5 && duration == 0#7)

/-- An INDEX row is a Bars content word other than `SEP` (R94, R103). -/
def indexOk (k : Word) : Bool :=
  k != Config.sep

/-- Well-formed instructions: a note row spells a note word, an index row is not the separator. -/
def Instr.wellFormed : Instr → Bool
  | .coreReset => true
  | .setMode _ => true
  | .setTempo _ _ => true
  | .setGapLen _ => true
  | .start => true
  | .fuStep => true
  | .fuEnd => true
  | .readWord => true
  | .peekGap => true
  | .decodeFrame _ _ _ => true
  | .add _ _ => true
  | .verify _ _ => true
  | .classify _ => true
  | .decode _ => true
  | .pitchInfo _ => true
  | .articulationName _ => true
  | .decodeTempo _ => true
  | .encodeTempo _ => true
  | .encodeNote _ _ _ _ _ => true
  | .parseNotesBlock => true
  | .parseBarsBlock => true
  | .parseTempoSubstitution => true
  | .barSlice _ => true
  | .writeWord _ => true
  | .writeGap _ => true
  | .encodeFrame _ => true
  | .runDecoder => true
  | .runTweak => true
  | .bin _ _ => true
  | .blank _ => true
  | .sep => true
  | .tempo _ => true
  | .note hi t am q pl d => noteFieldsOk hi t am q pl d
  | .count _ => true
  | .checksum _ => true
  | .index k => indexOk k

end Sys2Proof
end

