-- ==== Sys2Proof/Decode.lean ====
section
/-! DEFINITION. From bits to instructions and back: frames and words of the tape (30_encoding.md), the operation codes
of the command port (R110) with the model's own layout of the operands (log 1), and the encoder of each. -/

namespace Sys2Proof

/-! ### Frames and words -/

/-- Bit 7 tells a binary frame from a blank one, and nothing else does (R91). -/
def isBinary (f : Frame) : Bool := f.getLsbD 7

/-- The six data bits of a binary frame (R91). -/
def data6 (f : Frame) : Data6 := f.extractLsb' 0 6

/-- A canonical binary frame: `0200 | data6`, bit 6 clear (R92). -/
def binFrame (d : Data6) : Frame := Config.binFlag ||| d.setWidth 8

/-- `decodeFrame`: three binary frames to a word, most significant group first; absent if one is blank (R131, R64). -/
def decodeFrame (f0 f1 f2 : Frame) : Option Word :=
  if isBinary f0 && isBinary f1 && isBinary f2 then some (data6 f0 ++ data6 f1 ++ data6 f2) else none

/-- `encodeFrame`: a word to its three frames, high group first (R221). -/
def encodeFrame (w : Word) : Frame × Frame × Frame :=
  (binFrame (w.extractLsb' 12 6), binFrame (w.extractLsb' 6 6), binFrame (w.extractLsb' 0 6))

/-- The three frames of a word as they stand on a tape (R93, R221). -/
def wordFrames (w : Word) : List Frame :=
  [(encodeFrame w).1, (encodeFrame w).2.1, (encodeFrame w).2.2]

/-- `classify`: the class of a content word (R98, R161). -/
def classify (w : Word) : WordClass :=
  if w = Config.sep then .sep
  else if w &&& Config.tempoTag = Config.tempoTag then .tempo
  else .note

/-- The tempo word of a parameter: `0700000 | tempo15` (R96). -/
def tempoWord (t : Tempo15) : Word := Config.tempoTag ||| t.setWidth 18

/-- The parameter of a tempo word: `w & 0077777` (R97). -/
def tempo15 (w : Word) : Tempo15 := (w &&& Config.tempoMask).setWidth 15

/-- The word that the fields of a NOTE row spell, bit by bit as the table draws it: `hhTaaqpppppddddddd` (R99). -/
def noteWord (hi : BitVec 2) (triplet : BitVec 1) (artMid : BitVec 2) (shared : BitVec 1) (pitchLow : BitVec 5)
    (duration : BitVec 7) : Word :=
  hi ++ triplet ++ artMid ++ shared ++ pitchLow ++ duration

/-- The NOTE row of a word, bit by bit (R99). -/
def noteInstr (w : Word) : Instr :=
  .note (w.extractLsb' 16 2) (w.extractLsb' 15 1) (w.extractLsb' 13 2) (w.extractLsb' 12 1) (w.extractLsb' 7 5)
    (w.extractLsb' 0 7)

/-- The tape item a frame is (R90, R91). -/
def decodeFrameItem (f : Frame) : Instr :=
  if isBinary f then .bin (f.extractLsb' 6 1) (data6 f) else .blank (f.extractLsb' 0 7)

/-- The tape item a word is at a position of a block (R94, R98, R103). -/
def decodeWordAt (pos : WordPos) (w : Word) : Instr :=
  match pos with
  | .notesCount => .count w
  | .barsCount => .count w
  | .notesChecksum => .checksum w
  | .barsChecksum => .checksum w
  | .barsContent => if w = Config.sep then .sep else .index w
  | .notesContent =>
    match classify w with
    | .sep => .sep
    | .tempo => .tempo (tempo15 w)
    | .note => noteInstr w

/-! ### The command port -/

/-- Why bytes decode to no instruction. -/
inductive DecodeError where
  /-- There is no byte to decode. -/
  | noBytes
  /-- Bits 7:5 of the operation byte are not 0, so it holds no 5-bit code (log 1). -/
  | notAnOperationByte
  /-- Codes 11100 to 11111 are unassigned (R110). -/
  | unassignedCode
  /-- The bytes end inside the operands (log 1). -/
  | truncatedOperands
  /-- The bytes do not begin with the three binary frames of a word (R93). -/
  | notAWord
  deriving DecidableEq, Repr

/-- What a decoder answers: the instruction and the bytes after it, or why there is none. -/
abbrev Decoded := Except DecodeError (Instr × List Byte)

/-- One operand byte. -/
def withByte (bs : List Byte) (k : Byte → List Byte → Decoded) : Decoded :=
  match bs with
  | b :: rest => k b rest
  | [] => .error .truncatedOperands

/-- A 15-bit operand: two bytes, low byte first, the bits above ignored as R262 masks them. -/
def withTempo15 (bs : List Byte) (k : Tempo15 → List Byte → Decoded) : Decoded :=
  withByte bs fun b0 r0 => withByte r0 fun b1 r1 => k ((b1 ++ b0 : BitVec 16).setWidth 15) r1

/-- An 18-bit operand: three bytes, low byte first, the bits above ignored. -/
def withWord (bs : List Byte) (k : Word → List Byte → Decoded) : Decoded :=
  withByte bs fun b0 r0 => withByte r0 fun b1 r1 => withByte r1 fun b2 r2 =>
    k ((b2 ++ b1 ++ b0 : BitVec 24).setWidth 18) r2

/-- A natural-number operand read from base-128 digits, lowest first; bit 7 of a byte says that another digit follows. -/
def readNat : List Byte → Option (Nat × List Byte)
  | [] => none
  | b :: rest =>
    if b.getLsbD 7 then
      match readNat rest with
      | some (n, r) => some ((b.setWidth 7).toNat + 128 * n, r)
      | none => none
    else some (b.toNat, rest)

/-- A natural-number operand. -/
def withNat (bs : List Byte) (k : Nat → List Byte → Decoded) : Decoded :=
  match readNat bs with
  | some (n, rest) => k n rest
  | none => .error .truncatedOperands

/-- `MODE` from its bit: `DECODE` = 0, `TWEAK` = 1 (R48). -/
def modeOfBit (b : Bool) : Mode := if b then .tweak else .decode

/-- The operation of a 5-bit code with its operands (R110). -/
def decodeOperation (code : Nat) (r : List Byte) : Decoded :=
  match code with
  | 0 => .ok (.coreReset, r)
  | 1 => withByte r fun b r => .ok (.setMode (modeOfBit (b.getLsbD 0)), r)
  | 2 => withByte r fun b r => withTempo15 r fun t r => .ok (.setTempo (b.getLsbD 0) t, r)
  | 3 => withNat r fun n r => .ok (.setGapLen n, r)
  | 4 => .ok (.start, r)
  | 5 => .ok (.fuStep, r)
  | 6 => .ok (.fuEnd, r)
  | 7 => .ok (.readWord, r)
  | 8 => .ok (.peekGap, r)
  | 9 => withByte r fun f0 r => withByte r fun f1 r => withByte r fun f2 r => .ok (.decodeFrame f0 f1 f2, r)
  | 10 => withWord r fun a r => withWord r fun b r => .ok (.add a b, r)
  | 11 => withWord r fun a r => withWord r fun b r => .ok (.verify a b, r)
  | 12 => withWord r fun w r => .ok (.classify w, r)
  | 13 => withWord r fun w r => .ok (.decode w, r)
  | 14 => withByte r fun b r => .ok (.pitchInfo (b.setWidth 6), r)
  | 15 => withByte r fun b r => .ok (.articulationName (b.setWidth 4), r)
  | 16 => withWord r fun w r => .ok (.decodeTempo w, r)
  | 17 => withNat r fun n r => .ok (.encodeTempo n, r)
  | 18 =>
    withByte r fun p r => withByte r fun d r => withByte r fun a r => withByte r fun t r => withByte r fun h r =>
      .ok (.encodeNote (p.setWidth 6) (d.setWidth 7) (a.setWidth 4) (t.setWidth 1) (h.setWidth 2), r)
  | 19 => .ok (.parseNotesBlock, r)
  | 20 => .ok (.parseBarsBlock, r)
  | 21 => .ok (.parseTempoSubstitution, r)
  | 22 => withWord r fun k r => .ok (.barSlice k, r)
  | 23 => withWord r fun w r => .ok (.writeWord w, r)
  | 24 => withNat r fun n r => .ok (.writeGap n, r)
  | 25 => withWord r fun w r => .ok (.encodeFrame w, r)
  | 26 => .ok (.runDecoder, r)
  | 27 => .ok (.runTweak, r)
  | _ => .error .unassignedCode

/-- The next operation of the command port: one byte whose bits 4:0 are the code, then the operands. -/
def decodePort (bs : List Byte) : Decoded :=
  match bs with
  | [] => .error .noBytes
  | op :: rest =>
    if op.extractLsb' 5 3 = 0#3 then decodeOperation (op.extractLsb' 0 5).toNat rest else .error .notAnOperationByte

/-- The word at the head of the bytes of a tape, gap frames already passed, at a position of a block (R93, R94). -/
def decodeWordBytes (pos : WordPos) (bs : List Byte) : Decoded :=
  match bs with
  | [] => .error .noBytes
  | f0 :: f1 :: f2 :: rest =>
    match decodeFrame f0 f1 f2 with
    | some w => .ok (decodeWordAt pos w, rest)
    | none => .error .notAWord
  | _ => .error .notAWord

/-- The instruction at the head of the bytes, from a given source. -/
def decode (src : Source) (bs : List Byte) : Decoded :=
  match src with
  | .port => decodePort bs
  | .frame =>
    match bs with
    | [] => .error .noBytes
    | f :: rest => .ok (decodeFrameItem f, rest)
  | .word pos => decodeWordBytes pos bs

/-! ### The encoder -/

/-- Base-128 digits of a natural number, lowest first, at most `fuel + 1` of them. -/
def natDigits : Nat → Nat → List Byte
  | 0, n => [BitVec.ofNat 8 (n % 128)]
  | fuel + 1, n => if n < 128 then [BitVec.ofNat 8 n] else BitVec.ofNat 8 (128 + n % 128) :: natDigits fuel (n / 128)

/-- The bytes of a natural-number operand. -/
def natBytes (n : Nat) : List Byte := natDigits n n

/-- The bytes of an 18-bit operand, low byte first. -/
def wordBytes (w : Word) : List Byte := [w.extractLsb' 0 8, w.extractLsb' 8 8, (w.extractLsb' 16 2).setWidth 8]

/-- The bytes of a 15-bit operand, low byte first. -/
def tempo15Bytes (t : Tempo15) : List Byte := [t.extractLsb' 0 8, (t.extractLsb' 8 7).setWidth 8]

/-- The bit of `MODE` (R48). -/
def bitOfMode : Mode → Byte
  | .decode => 0#8
  | .tweak => 1#8

/-- A one-bit operand as a byte. -/
def boolByte (b : Bool) : Byte := if b then 1#8 else 0#8

/-- The bytes of an instruction: an operation as the command port takes it, a tape item as it stands on the tape. -/
def encode : Instr → List Byte
  | .coreReset => [0#8]
  | .setMode m => [1#8, bitOfMode m]
  | .setTempo en t => 2#8 :: boolByte en :: tempo15Bytes t
  | .setGapLen n => 3#8 :: natBytes n
  | .start => [4#8]
  | .fuStep => [5#8]
  | .fuEnd => [6#8]
  | .readWord => [7#8]
  | .peekGap => [8#8]
  | .decodeFrame f0 f1 f2 => [9#8, f0, f1, f2]
  | .add a b => 10#8 :: (wordBytes a ++ wordBytes b)
  | .verify a b => 11#8 :: (wordBytes a ++ wordBytes b)
  | .classify w => 12#8 :: wordBytes w
  | .decode w => 13#8 :: wordBytes w
  | .pitchInfo p => [14#8, p.setWidth 8]
  | .articulationName c => [15#8, c.setWidth 8]
  | .decodeTempo w => 16#8 :: wordBytes w
  | .encodeTempo n => 17#8 :: natBytes n
  | .encodeNote p d a t h => [18#8, p.setWidth 8, d.setWidth 8, a.setWidth 8, t.setWidth 8, h.setWidth 8]
  | .parseNotesBlock => [19#8]
  | .parseBarsBlock => [20#8]
  | .parseTempoSubstitution => [21#8]
  | .barSlice k => 22#8 :: wordBytes k
  | .writeWord w => 23#8 :: wordBytes w
  | .writeGap n => 24#8 :: natBytes n
  | .encodeFrame w => 25#8 :: wordBytes w
  | .runDecoder => [26#8]
  | .runTweak => [27#8]
  | .bin x d => [1#1 ++ x ++ d]
  | .blank x => [0#1 ++ x]
  | .sep => wordFrames Config.sep
  | .tempo t => wordFrames (tempoWord t)
  | .note hi t am q pl d => wordFrames (noteWord hi t am q pl d)
  | .count n => wordFrames n
  | .checksum c => wordFrames c
  | .index k => wordFrames k

/-- Where an instruction is decoded from. A count or checksum word is given its position in a Notes block, a separator
too; the Bars positions are the other choice (R94). -/
def Instr.source : Instr → Source
  | .bin _ _ => .frame
  | .blank _ => .frame
  | .sep => .word .notesContent
  | .tempo _ => .word .notesContent
  | .note _ _ _ _ _ _ => .word .notesContent
  | .count _ => .word .notesCount
  | .checksum _ => .word .notesChecksum
  | .index _ => .word .barsContent
  | .coreReset => .port
  | .setMode _ => .port
  | .setTempo _ _ => .port
  | .setGapLen _ => .port
  | .start => .port
  | .fuStep => .port
  | .fuEnd => .port
  | .readWord => .port
  | .peekGap => .port
  | .decodeFrame _ _ _ => .port
  | .add _ _ => .port
  | .verify _ _ => .port
  | .classify _ => .port
  | .decode _ => .port
  | .pitchInfo _ => .port
  | .articulationName _ => .port
  | .decodeTempo _ => .port
  | .encodeTempo _ => .port
  | .encodeNote _ _ _ _ _ => .port
  | .parseNotesBlock => .port
  | .parseBarsBlock => .port
  | .parseTempoSubstitution => .port
  | .barSlice _ => .port
  | .writeWord _ => .port
  | .writeGap _ => .port
  | .encodeFrame _ => .port
  | .runDecoder => .port
  | .runTweak => .port

/-! ### Words of spec/opcode_table.json -/

/-- Operand bytes of zeros, as many as the longest instruction has. -/
def zeroOperands : List Byte := List.replicate 6 0#8

/-- The source of a table word: 8 bits hold an operation code if bits 7:5 are 0 and a frame otherwise, more bits hold a
word, read by pattern as Notes content (log 9). -/
def tableSource (nbits w : Nat) : Source :=
  if nbits ≤ 8 then (if w < 32 then .port else .frame) else .word .notesContent

/-- The bytes of a table word as the hardware stores them: the operation byte with operands of zeros, the frame, or the
three frames of the 18-bit word. -/
def tableBytes (nbits w : Nat) : List Byte :=
  if nbits ≤ 8 then (if w < 32 then BitVec.ofNat 8 w :: zeroOperands else [BitVec.ofNat 8 w])
  else wordFrames (BitVec.ofNat 18 w)

/-- The instruction the decoder reads from a word of spec/opcode_table.json; none where it refuses or the word does not
fit its format. -/
def decodeTableWord (nbits w : Nat) : Option Instr :=
  if w < (if nbits ≤ 8 then 256 else 262144) then
    match decode (tableSource nbits w) (tableBytes nbits w) with
    | .ok (i, _) => some i
    | .error _ => none
  else none

end Sys2Proof
end

