-- ==== Sys2Proof/Machine/State.lean ====
section
/-! DEFINITION. The machine state as plain data (10_state.md), the state after reset (R53), and why a step can stop. -/

namespace Sys2Proof.Machine

/-- `blk`: the block in progress or last parsed (R38). -/
inductive Blk where
  | none
  | notes
  | bars
  deriving DecidableEq, Repr

/-- `SEQ`: the sequencer state (R45, R231). -/
inductive Seq where
  | expectLeaderGap
  | expectNotesBlock
  | expectGap1
  | expectBarsBlock
  | expectGap2
  | endOfTape
  | faulted
  deriving DecidableEq, Repr

/-- `STATUS`: three 1-bit fields (R51). -/
structure Status where
  running : Bool
  done : Bool
  outValid : Bool
  deriving DecidableEq, Repr

/-- The eight fault kinds (R270). `ioError` belongs to the software around the streams and is never raised (R279). -/
inductive FaultKind where
  | malformedInput
  | checksumError
  | structuralError
  | indexOutOfRange
  | invalidArticulation
  | unexpectedEOF
  | unexpectedTrailingData
  | ioError
  deriving DecidableEq, Repr

/-- `FINFO`: the diagnostic record of a fault; a field is present only for the kinds R280 lists. -/
structure FInfo where
  widx : Option Nat := Option.none
  blk : Option Blk := Option.none
  voice : Option (BitVec 3) := Option.none
  sub : Option Nat := Option.none
  expected : Option Word := Option.none
  computed : Option Word := Option.none
  index : Option Word := Option.none
  notesCount : Option Word := Option.none
  code : Option (BitVec 4) := Option.none
  word : Option Word := Option.none
  gap : Option Nat := Option.none
  deriving DecidableEq, Repr

/-- The kind of a gap in an `EvGap` record (R47). -/
inductive GapKind where
  | leader
  | notesBars
  | interVoice
  | final
  deriving DecidableEq, Repr

/-- The event records of R47; `v` is `VOICE`, `i` the index of the content word within its block. -/
inductive Event where
  | gap (kind : GapKind) (len : Nat)
  | count (v : BitVec 3) (blk : Blk) (count : Word)
  | tempo (v : BitVec 3) (i : Nat) (w : Word) (tempo15 : Tempo15) (bpm : Option Nat) (wOut : Word)
  | sep (v : BitVec 3) (i : Nat)
  | note (v : BitVec 3) (i : Nat) (w : Word) (note : Note) (artName : Articulation) (noteDuration : Option Nat)
      (pitchInfo : PitchInfo)
  | checksum (v : BitVec 3) (blk : Blk) (expected computed : Word) (outSum : Option Word)
  | barSep (v : BitVec 3) (i : Nat)
  | bar (v : BitVec 3) (i : Nat) (start : Word) (words : List Word)
  | ended (voices : BitVec 3) (words framesIn framesOut : Nat)
  deriving DecidableEq, Repr

/-- What an operation yields (the column "result" of R110). The field of State that holds it is the model's own (log 4). -/
inductive Result where
  /-- The operation has no result, or none has been issued. -/
  | none
  /-- `fuStep` completed no word (R132). -/
  | noWord
  /-- `Word(w, g)` of `fuStep` and `readWord` (R13). -/
  | word (w : Word) (g : Nat)
  /-- `EndOfStream(g)` (R13, R134). -/
  | endOfStream (g : Nat)
  /-- `(hasMoreWords, gapLength)` of `peekGap` and `parseBarsBlock` (R136, R202). -/
  | peek (hasMoreWords : Bool) (gapLength : Nat)
  /-- An optional word: `decodeFrame`, `encodeNote`. -/
  | maybeWord (w : Option Word)
  /-- A word: `add`, `encodeTempo`. -/
  | plainWord (w : Word)
  /-- The class `classify` yields (R161). -/
  | wordClass (c : WordClass)
  /-- The full result of `decode` (R163). -/
  | note (n : Note) (noteDuration : Option Nat) (pitchInfo : PitchInfo)
  /-- The result of `pitchInfo` (R165). -/
  | pitchInfo (p : PitchInfo)
  /-- The name `articulationName` yields (R166). -/
  | articulation (a : Articulation)
  /-- The optional `bpm` of `decodeTempo` (R167). -/
  | bpm (b : Option Nat)
  /-- The words of `barSlice` (R196). -/
  | words (ws : List Word)
  /-- The three frames of `encodeFrame` (R221). -/
  | frames (f0 f1 f2 : Frame)
  /-- The run outcome `Done(VOICE)` (R264). -/
  | runDone (voice : BitVec 3)
  /-- The outcome `Fault(FAULT, FINFO)` (R264, R281). -/
  | fault (code : BitVec 4) (info : FInfo)
  deriving DecidableEq, Repr

/-- What one step of the model takes (R264 lets a model expose the steps of a run individually; log 6). -/
inductive Level where
  /-- An operation of the command port, executed whole. -/
  | operation
  /-- A word of the tape while a run is in progress. -/
  | word
  /-- A frame of the tape. -/
  | frame
  deriving DecidableEq, Repr

/-- A word-addressed memory: the defined cells by rising index; an index not listed is undefined, it holds no value
(R41, R66). -/
abbrev Memory := List (Nat × Word)

/-- The machine. The comments name the spec's register and its rule; the last group is the model's own. -/
structure State where
  /-- `ipos`: frames of `IN` consumed so far (R30). -/
  ipos : Nat
  /-- `fcnt`: binary frames assembled toward the current word (R31). -/
  fcnt : BitVec 2
  /-- `acc`: their data bits, right-justified (R32). -/
  acc : Word
  /-- `gap`: blank frames since the last word was completed (R33). -/
  gap : Nat
  /-- `widx`: words completed so far (R34). -/
  widx : Nat
  /-- `sum_in` (R36). -/
  sumIn : Word
  /-- `sum_out` (R37). -/
  sumOut : Word
  /-- `blk` (R38). -/
  blk : Blk
  /-- `count`: the declared word count of the block in progress (R39). -/
  count : Word
  /-- `idx`: content words of the block in progress already consumed (R39). -/
  idx : Nat
  /-- `notes_count` (R40). -/
  notesCount : Word
  /-- `NOTES` (R41). -/
  notes : Memory
  /-- `notes_valid` (R42). -/
  notesValid : Bool
  /-- `OUT` (R43). -/
  out : List Frame
  /-- `opos` (R43). -/
  opos : Nat
  /-- `VOICE` (R44). -/
  voice : BitVec 3
  /-- `SEQ` (R45). -/
  seq : Seq
  /-- `EV` (R46). -/
  ev : List Event
  /-- `MODE` (R48). -/
  mode : Mode
  /-- `TEMPO_EN` (R49). -/
  tempoEn : Bool
  /-- `TEMPO_OVR` (R49). -/
  tempoOvr : Tempo15
  /-- `GAP_LEN` (R50). -/
  gapLen : Nat
  /-- `STATUS` (R51). -/
  status : Status
  /-- `FAULT`: the code of the first fault since reset, 0 for none (R52). -/
  fault : BitVec 4
  /-- `FINFO` (R52, R280). -/
  finfo : FInfo
  /-- `IN`: the tape in place (R22, R61). The environment's; no step writes it (log 3). -/
  tape : List Frame
  /-- Model's own: the operations issued and not yet taken, as bytes (log 1). -/
  port : List Byte
  /-- Model's own: what a step takes (log 6). -/
  level : Level
  /-- Model's own: what the last operation yielded (log 4). -/
  result : Result
  /-- Model's own: the `g` of the last `Word(w, g)` FU delivered, a local of the spec's block operations (log 5). -/
  wordGap : Nat
  /-- Model's own: the previous result FU delivered was `EndOfStream`, which the precondition of `readWord` asks (R133;
  log 13). -/
  streamEnded : Bool
  /-- Model's own: how many free values have been drawn (log 15). -/
  freeDraws : Nat
  /-- Model's own: since the last `coreReset` an operation other than the configuration has completed outside a run, so
  that no `start` is accepted before the next `coreReset` (R303; log 14). -/
  driven : Bool
  deriving DecidableEq, Repr

/-- Why the machine stops. The eight fault kinds of R271 are not here: their entry is described (R281) and is a next
state. -/
inductive Fault where
  /-- A read of a `NOTES` cell that holds no value (R41, R66). Raised by `barSlice`, and by a Bars index word, in states
  that no run reaches. Safe: the hardware has no such read (R68). -/
  | notesUndefined (index : Nat)
  deriving DecidableEq, Repr

/-- Why an invocation is given no meaning (R14): a precondition that the host owes is broken. All are safe: a refusal is
not a behaviour, nothing can be proved of it. -/
inductive Refusal where
  /-- An instruction that has no meaning yet; raised by exec's arms alone. -/
  | notModelled (mnemonic : String)
  /-- `FAULT` is not 0: only `coreReset` is accepted (R52, R281). -/
  | faulted
  /-- `STATUS.DONE` = 1: only `coreReset` is accepted (R260, R264, U20; log 12). -/
  | runEnded
  /-- A configuration operation while a run is in progress (R261 to R263, R317). -/
  | running
  /-- `start`, `runDecoder` or `runTweak` with a register other than the configuration not at its reset value, or after
  any operation but the configuration since `coreReset` (R264, R303; log 14). -/
  | notAtReset
  /-- A block operation or a word of the tape with `STATUS.RUNNING` = 0 (R192, R194). -/
  | notRunning
  /-- A block operation in the wrong sequencer state (R192, R194). -/
  | wrongSequence
  /-- `parseBarsBlock` without a verified Notes block of the same voice (R194, R311). -/
  | notesNotValid
  /-- `fcnt` is not 0 where the operation needs a word boundary (R133, R136, R192, R194). -/
  | midWord
  /-- `readWord` with `gap` not 0 where FU's previous result was not `EndOfStream`: a `fuStep` issued on its own has
  counted a blank frame (R133; log 13). -/
  | gapPending
  /-- `fuStep` at the end of the stream, where `fuEnd` stands in its place (R132, R134). -/
  | noFrame
  /-- `fuEnd` before the end of the stream (R134). -/
  | framesRemain
  /-- `writeWord` or `writeGap` with `MODE` = `DECODE` (R225). -/
  | decodeMode
  /-- `parseTempoSubstitution` with `MODE` = `DECODE` (R197). -/
  | notTweak
  /-- `barSlice` of an index that is not below `notes_count` (R196). -/
  | indexNotInNotes
  /-- A word of the tape executed where the block in progress has no such position (R94; log 21). -/
  | notAtPosition
  /-- The bytes at the command port are no operation (R110, U17; log 1). -/
  | undecodable (e : DecodeError)
  deriving DecidableEq, Repr

/-- The state after `coreReset` (R53); the model's own fields as log 17 names them. -/
def State.reset : State where
  ipos := 0
  fcnt := 0#2
  acc := 0#18
  gap := 0
  widx := 0
  sumIn := 0#18
  sumOut := 0#18
  blk := .none
  count := 0#18
  idx := 0
  notesCount := 0#18
  notes := []
  notesValid := false
  out := []
  opos := 0
  voice := 1#3
  seq := .expectLeaderGap
  ev := []
  mode := .decode
  tempoEn := false
  tempoOvr := 0#15
  gapLen := Config.gapLenDefault
  status := { running := false, done := false, outValid := false }
  fault := 0#4
  finfo := {}
  tape := []
  port := []
  level := .operation
  result := .none
  wordGap := 0
  streamEnded := false
  freeDraws := 0
  driven := false

end Sys2Proof.Machine
end

