-- ==== Sys2Proof/Machine/Flags.lean ====
section
/-! DEFINITION. The flags of this hardware are the three fields of `STATUS`; there are no condition codes (R51). -/

namespace Sys2Proof.Machine

/-- `STATUS.RUNNING <- 1`, as `start` sets it (R264). -/
def setRunning (s : State) : State := { s with status := { s.status with running := true } }

/-- `STATUS.RUNNING <- 0`, as a fault leaves it; `DONE` and `OUT_VALID` stay (R281). -/
def clearRunning (s : State) : State := { s with status := { s.status with running := false } }

/-- The flags of a completed run: `DONE` set, `OUT_VALID` set in `TWEAK` mode only, `RUNNING` cleared (R51, R232). -/
def setDone (s : State) : State :=
  { s with status := { running := false, done := true, outValid := decide (s.mode = .tweak) } }

end Sys2Proof.Machine
end

