-- ==== Sys2Proof/Machine/Params.lean ====
section
/-! DEFINITION. The parameters whose value or form the spec itself chose (R8), and the two display constants (R6, R7),
each in one place so that a correction changes one definition (log 19). -/

namespace Sys2Proof.Machine

/-- `TEMPO_K`: an authoritative constant, not to be re-derived (R6, R7). -/
def tempoK : Nat := 11436

/-- `DUR_K`: the dividend of the displayed duration (R6, R7). -/
def durK : Nat := 192

/-- `NoteLayout`: the field positions of a note word; bits 12 and 15 are each claimed twice (R99, D12). -/
def noteLayout : Config.NoteLayout where
  duration := 0
  pitch := 7
  artLow := 12
  artHigh := 14
  triplet := 15
  hi := 16

/-- `DivRound`: the display divisions truncate (R8, R11, D14). -/
def divRound (a b : Nat) : Nat := a / b

/-- `NOTES_CAP`: every 18-bit count fits, so no capacity fault exists (R67). -/
def notesCap : Nat := 262143

/-- `barsCountMismatch`: the trigger of StructuralError's second cause, constantly false (R199, D19). Its arguments are
the declared count and the number of content words consumed. -/
def barsCountMismatch (_declared : Word) (_consumed : Nat) : Bool := false

/-- `VOICE_BASE`: voices are numbered from 1 (R44). -/
def voiceBase : Nat := 1

/-- The number of the last voice of a full tape (R6, R44). -/
def lastVoice : BitVec 3 := BitVec.ofNat 3 (voiceBase + Config.voices - 1)

end Sys2Proof.Machine
end

