-- ==== Sys2Proof/Machine/Ops.lean ====
section
/-! DEFINITION. The shared operations: the outcome of a part of an operation, fault entry (R281), the preconditions every
operation has (R52), the event stream, the output stream and the Notes buffer. -/

namespace Sys2Proof.Machine

/-- What a step of the model answers. -/
abbrev Out := Host.Outcome State Fault Refusal

/-- How a part of an operation ends: with a value, with a fault entered, or stopped at a read that does not exist. -/
inductive Act (α : Type) where
  /-- It completes and yields a value. -/
  | done (a : α) (s : State)
  /-- It has raised a fault; the state is the one fault entry leaves (R281). -/
  | raised (s : State)
  /-- It met a read that the spec does not have. -/
  | stuck (f : Fault)

/-- Do one part, then the next; a fault ends the operation at once (R281). -/
def Act.bind {α β : Type} (x : Act α) (f : α → State → Act β) : Act β :=
  match x with
  | .done a s => f a s
  | .raised s => .raised s
  | .stuck r => .stuck r

/-! ### Fault entry -/

/-- The codes of `FAULT` (R271). -/
def FaultKind.code : FaultKind → BitVec 4
  | .malformedInput => 1#4
  | .checksumError => 2#4
  | .structuralError => 3#4
  | .indexOutOfRange => 4#4
  | .invalidArticulation => 5#4
  | .unexpectedEOF => 6#4
  | .unexpectedTrailingData => 7#4
  | .ioError => 8#4

/-- Fault entry (R281): `FAULT`, `FINFO`, `SEQ` and `STATUS.RUNNING` are written and nothing else. The other registers
are left as they stood, which R281 allows a model and lets no claim rest on (log 10). -/
def raise (k : FaultKind) (info : FInfo) (s : State) : State :=
  clearRunning { s with fault := k.code, finfo := info, seq := .faulted }

/-- The part of `FINFO` every fault has: the word index, and `blk` and `VOICE` as they stand (R280). -/
def infoAt (widx : Option Nat) (s : State) : FInfo :=
  { widx := widx, blk := some s.blk, voice := some s.voice }

/-! ### Accepting an operation and yielding its result -/

/-- The preconditions every operation but `coreReset` has: no fault is held (R52) and the run has not ended (U20). -/
def accept (s : State) (k : Out) : Out :=
  if s.fault = 0#4 then (if s.status.done then .refused .runEnded else k) else .refused .faulted

/-- An operation outside a run is remembered until the next `coreReset`, since between `coreReset` and `start` only the
configuration operations are accepted (R303; log 14). Within a run nothing is. -/
def drive (s : State) : State := { s with driven := s.driven || !s.status.running }

/-- Accept an operation of FU, CS, NC, TE or `barSlice`, which a host may issue outside a run too (R286, R289): its body
runs on the state that remembers it. -/
def acceptUnit (s : State) (k : State → Out) : Out := accept s (k (drive s))

/-- A precondition of one operation: refused by name when it is broken (R14). -/
def require (c : Prop) [Decidable c] (r : Refusal) (k : Out) : Out :=
  if c then k else .refused r

/-- Put the value an operation yields into the port's result (R110; log 4). -/
def setResult (r : Result) (s : State) : State := { s with result := r }

/-- The outcome `Fault(FAULT, FINFO)` of an operation that faulted (R264, R281). -/
def faultResult (s : State) : State := setResult (.fault s.fault s.finfo) s

/-- The end of an operation: its result is delivered, whether it completed or faulted. -/
def finish {α : Type} (f : α → Result) (x : Act α) : Out :=
  match x with
  | .done a s => .next (setResult (f a) s)
  | .raised s => .next (faultResult s)
  | .stuck r => .fault r

/-! ### Events and output -/

/-- `Emit(e)`: append an event record to `EV` (R12, R46). -/
def emit (e : Event) (s : State) : State := { s with ev := s.ev ++ [e] }

/-- `Out(f)` for each frame in turn: append to `OUT` and count in `opos` (R12, R43). -/
def appendFrames (fs : List Frame) (s : State) : State := { s with out := s.out ++ fs, opos := s.opos + fs.length }

/-- `writeWord` of TE: the three frames of the word, high group first (R222). -/
def putWord (w : Word) (s : State) : State := appendFrames (wordFrames w) s

/-- `writeGap` of TE: `n` blank frames, all zero (R223). -/
def putGap (n : Nat) (s : State) : State := appendFrames (List.replicate n 0#8) s

/-- `if MODE = TWEAK then writeWord(w)`, as the block operations and `run` drive TE (R225). -/
def copyWord (w : Word) (s : State) : State := if s.mode = .tweak then putWord w s else s

/-- `if MODE = TWEAK then writeGap(n)` (R225). -/
def copyGap (n : Nat) (s : State) : State := if s.mode = .tweak then putGap n s else s

/-! ### The Notes buffer -/

/-- The word at an index of `NOTES`; none where the cell is undefined (R41). -/
def Memory.read : Memory → Nat → Option Word
  | [], _ => none
  | (a, v) :: m, i => if a = i then some v else Memory.read m i

/-- `MemWrite(i, 1, v)` (R12): store a word, keeping the cells by rising index. -/
def Memory.write : Memory → Nat → Word → Memory
  | [], i, v => [(i, v)]
  | (a, u) :: m, i, v =>
    if i < a then (i, v) :: (a, u) :: m
    else if i = a then (i, v) :: m
    else (a, u) :: Memory.write m i v

/-- The one canonical form: indices strictly rising. An unlisted cell holds no value, so no entry equals it (R41). -/
abbrev Memory.wf (m : Memory) : Prop := (m.map Prod.fst).Pairwise (· < ·)

/-- `MemRead(i, n)`: the words at indices `i` to `i + n - 1` (R12). -/
def Memory.readRange (m : Memory) : Nat → Nat → Except Fault (List Word)
  | _, 0 => .ok []
  | i, n + 1 =>
    match m.read i with
    | none => .error (.notesUndefined i)
    | some w =>
      match Memory.readRange m (i + 1) n with
      | .ok ws => .ok (w :: ws)
      | .error f => .error f

end Sys2Proof.Machine
end

