-- ==== Sys2Proof/Machine/Checksum.lean ====
section
/-! DEFINITION. CS, the ones'-complement checksum: `add`, `verify` (41_checksum.md). -/

namespace Sys2Proof.Machine

/-- `add(sum, word)`: the sum with its carry folded back in, masked to 18 bits (R151). -/
def csAdd (sum word : Word) : Word :=
  let raw := sum.toNat + word.toNat
  let fold := (raw &&& 0x3FFFF) + (raw >>> 18)
  BitVec.ofNat 18 (fold &&& 0x3FFFF)

/-- The checksum of a block: `add` folded over its content words from 0 (R155). -/
def blockChecksum (ws : List Word) : Word := ws.foldl csAdd 0#18

/-- `verify(expected, computed)`: exact equality, else ChecksumError with both values (R154, R273). -/
def csVerify (expected computed : Word) (widx : Option Nat) (s : State) : Act Unit :=
  if expected = computed then .done () s
  else .raised (raise .checksumError
    { infoAt widx s with expected := some expected, computed := some computed } s)

/-- `add`, pure (R151). -/
def execAdd (sum word : Word) (s : State) : Out :=
  acceptUnit s fun s => .next (setResult (.plainWord (csAdd sum word)) s)

/-- `verify` issued on its own: a mismatch raises ChecksumError. `FINFO.widx` is present, as for every kind; which word it
names is not stated and is a free value (R154, R280; log 15). -/
def execVerify (expected computed : Word) (s : State) : Out :=
  acceptUnit s fun s => finish (fun _ => Result.none)
    (csVerify expected computed (some (Config.openWordIndex s.freeDraws))
      (if expected = computed then s else { s with freeDraws := s.freeDraws + 1 }))

end Sys2Proof.Machine
end

