-- ==== Sys2Proof/Machine/Operands.lean ====
section
/-! DEFINITION. The operand forms: the fields of a note word by `noteLayout` (R99), and the frames the stream positions
name (R12). -/

namespace Sys2Proof.Machine

/-- The fields of a note word, each where `noteLayout` puts it; the articulation code is the high group over the low
group (R99, R163). -/
def noteFields (w : Word) : Note where
  pitch := w.extractLsb' noteLayout.pitch 6
  duration := w.extractLsb' noteLayout.duration 7
  art := w.extractLsb' noteLayout.artHigh 2 ++ w.extractLsb' noteLayout.artLow 2
  triplet := w.extractLsb' noteLayout.triplet 1
  hi := w.extractLsb' noteLayout.hi 2

/-- The word that carries every field at its position: `(hi << 16) | (art << 12) | (pitch << 7) | duration` of R169, with
the articulation code by its two groups and the triplet flag placed as well, so that all of it follows `noteLayout`
(R162). Where two fields claim a bit, the bit is set if either sets it. -/
def insertFields (n : Note) : Word :=
  (n.hi.setWidth 18 <<< noteLayout.hi) ||| (n.triplet.setWidth 18 <<< noteLayout.triplet) |||
    ((n.art.extractLsb' 2 2).setWidth 18 <<< noteLayout.artHigh) |||
    ((n.art.extractLsb' 0 2).setWidth 18 <<< noteLayout.artLow) ||| (n.pitch.setWidth 18 <<< noteLayout.pitch) |||
    (n.duration.setWidth 18 <<< noteLayout.duration)

/-- Fields that claim the same bit agree on it: the inserted word has the very fields it was made of (R169, R170). With
the positions of R99 the shared bits are 12 and 15: `art[0] = pitch[5]` and `art[3] = triplet`. -/
def sharedBitsAgree (n : Note) : Bool := decide (noteFields (insertFields n) = n)

/-- `In(ipos)`: the frame at the reading position, none at the end of the stream (R12, R61). -/
def nextFrame (s : State) : Option Frame := s.tape[s.ipos]?

/-- The frames of `IN` not consumed yet, in tape order (R12). -/
def restOfTape (s : State) : List Frame := s.tape.drop s.ipos

end Sys2Proof.Machine
end

