-- ==== Sys2Proof/Machine/FrameUnpacker.lean ====
section
/-! DEFINITION. FU, the frame unpacker: `decodeFrame`, `fuStep`, `fuEnd`, `readWord`, `peekGap` (40_frame_unpacker.md). -/

namespace Sys2Proof.Machine

/-- The result of `readWord` (R13). -/
inductive ReadResult where
  | word (w : Word) (g : Nat)
  | endOfStream (g : Nat)
  deriving DecidableEq, Repr

/-- What FU does with a frame it has consumed: the body of `fuStep` after `ipos <- ipos + 1` (R132). Whatever it yields is
no `EndOfStream`. -/
def fuFrame (f : Frame) (s : State) : Act (Option (Word × Nat)) :=
  if isBinary f then
    let a := (s.acc <<< 6) ||| (data6 f).setWidth 18
    if s.fcnt = 2#2 then
      .done (some (a, s.gap))
        { s with
          acc := 0#18, fcnt := 0#2, gap := 0, widx := s.widx + 1, wordGap := s.gap, streamEnded := false }
    else .done none { s with acc := a, fcnt := s.fcnt + 1#2, streamEnded := false }
  else if s.fcnt = 0#2 then .done none { s with gap := s.gap + 1, streamEnded := false }
  else .raised (raise .malformedInput { infoAt (some s.widx) s with sub := some 1 } s)

/-- `ipos <- ipos + 1` (R30, R132). -/
def passFrame (s : State) : State := { s with ipos := s.ipos + 1 }

/-- `fuEnd`: the transition at the end of the stream, which changes no register (R134). -/
def fuAtEnd (s : State) : Act Nat :=
  if s.fcnt = 0#2 then .done s.gap { s with streamEnded := true }
  else .raised (raise .malformedInput { infoAt (some s.widx) s with sub := some 2 } s)

/-- `readWord` over the frames still to come: `fuStep` each until a word is complete, `fuEnd` when there is none left
(R133). -/
def readFrames : List Frame → State → Act ReadResult
  | [], s => (fuAtEnd s).bind fun g s' => .done (.endOfStream g) s'
  | f :: fs, s =>
    (fuFrame f (passFrame s)).bind fun r s' =>
      match r with
      | some (w, g) => .done (.word w g) s'
      | none => readFrames fs s'

/-- `readWord` (R133). -/
def fuRead (s : State) : Act ReadResult := readFrames (restOfTape s) s

/-- Whether a binary frame occurs, and the blank frames before it or before the end (R136). -/
def countBlanks : List Frame → Bool × Nat
  | [] => (false, 0)
  | f :: fs => if isBinary f then (true, 0) else ((countBlanks fs).1, (countBlanks fs).2 + 1)

/-- `peekGap`: `(hasMoreWords, gapLength)`, a function of the state that writes nothing (R136). -/
def fuPeek (s : State) : Bool × Nat := countBlanks (restOfTape s)

/-- The result of a read as the port delivers it (R110). -/
def ReadResult.toResult : ReadResult → Result
  | .word w g => .word w g
  | .endOfStream g => .endOfStream g

/-- The result of a frame step as the port delivers it (R132). -/
def frameResult : Option (Word × Nat) → Result
  | some (w, g) => .word w g
  | none => .noWord

/-- `fuStep`: consume the frame at `ipos`; defined when there is one (R132). -/
def execFuStep (s : State) : Out :=
  acceptUnit s fun s =>
    match nextFrame s with
    | some f => finish frameResult (fuFrame f (passFrame s))
    | none => .refused .noFrame

/-- `fuEnd`: taken in place of `fuStep` when `ipos = len(IN)` (R134). -/
def execFuEnd (s : State) : Out :=
  acceptUnit s fun s =>
    match nextFrame s with
    | some _ => .refused .framesRemain
    | none => finish .endOfStream (fuAtEnd s)

/-- `readWord`: precondition `fcnt = 0`, and `gap = 0` or the previous result was `EndOfStream` (R133; log 13). After an
`EndOfStream(n)` it yields `EndOfStream(n)` again, as R133 says, also where a peek in between has yielded `(false, 0)`, from
which the corner case of R136 would have `EndOfStream(0)` (DEDUCED, log 32). -/
def execReadWord (s : State) : Out :=
  acceptUnit s fun s => require (s.fcnt = 0#2) .midWord <| require (s.gap = 0 ∨ s.streamEnded = true) .gapPending <|
    finish ReadResult.toResult (fuRead s)

/-- `peekGap`: precondition `fcnt = 0` (R136). -/
def execPeekGap (s : State) : Out :=
  acceptUnit s fun s => require (s.fcnt = 0#2) .midWord <|
    .next (setResult (.peek (fuPeek s).1 (fuPeek s).2) s)

/-- `decodeFrame`, pure: three binary frames to a word, none if one is blank (R131). -/
def execDecodeFrame (f0 f1 f2 : Frame) (s : State) : Out :=
  acceptUnit s fun s => .next (setResult (.maybeWord (decodeFrame f0 f1 f2)) s)

end Sys2Proof.Machine
end

