-- ==== Sys2Proof/Machine/NoteCodec.lean ====
section
/-! DEFINITION. NC, the note and tempo codec (42_note_codec.md). All operations are functions of their operands; only
`articulationName` can fault. -/

namespace Sys2Proof.Machine

/-- `noteDuration(duration, triplet)`: the displayed denominator, absent for a zero divisor (R164). -/
def noteDuration (duration : BitVec 7) (triplet : BitVec 1) : Option Nat :=
  let div := duration.toNat * (if triplet = 1#1 then 2 else 3)
  if div = 0 then none else some (divRound durK div)

/-- `pitchInfo(pitch)`: 0 and 1 are rests, the others a pitch class and octave (R165). -/
def pitchInfo (pitch : BitVec 6) : PitchInfo :=
  if pitch.toNat < 2 then .rest pitch
  else
    let notePitch := pitch.toNat - 2
    .pitched notePitch (notePitch / 12 + 1) (notePitch % 12)

/-- `articulationName(code)` where it names one: 0, 1, 2, 4, 8 (R166). -/
def articulation (code : BitVec 4) : Option Articulation :=
  if code = 0#4 then some .normal
  else if code = 1#4 then some .quarter
  else if code = 2#4 then some .half
  else if code = 4#4 then some .staccato
  else if code = 8#4 then some .legato
  else none

/-- `articulationName(code)`, with InvalidArticulation for every other code (R166, R276). -/
def nameArticulation (code : BitVec 4) (widx : Option Nat) (word : Option Word) (s : State) : Act Articulation :=
  match articulation code with
  | some a => .done a s
  | none => .raised (raise .invalidArticulation { infoAt widx s with code := some code, word := word } s)

/-- `decodeTempo(word)`: beats per minute for display, absent for a zero parameter (R167). -/
def decodeTempo (w : Word) : Option Nat :=
  let t := (w &&& Config.tempoMask).toNat
  if t = 0 then none else some (divRound tempoK t)

/-- `encodeTempo(bpm15)`: `0700000 | (bpm15 & 0077777)`, packing only (R168). -/
def encodeTempo (bpm15 : Nat) : Word :=
  Config.tempoTag ||| (BitVec.ofNat 18 bpm15 &&& Config.tempoMask)

/-- `encodeNote(n)`: the inverse of `decode` on note words; absent where shared bits disagree or the word would not be a
note word (R169). It knows the positions through `noteLayout` only (R162). -/
def encodeNote (n : Note) : Option Word :=
  if sharedBitsAgree n then
    (if classify (insertFields n) = .note then some (insertFields n) else none)
  else none

/-- `classify` (R161). -/
def execClassify (w : Word) (s : State) : Out :=
  acceptUnit s fun s => .next (setResult (.wordClass (classify w)) s)

/-- `decode`: the Note with its duration and pitch for display (R163; on a word of another class log 23). -/
def execDecode (w : Word) (s : State) : Out :=
  acceptUnit s fun s =>
    .next (setResult (.note (noteFields w) (noteDuration (noteFields w).duration (noteFields w).triplet)
      (pitchInfo (noteFields w).pitch)) s)

/-- `pitchInfo` (R165). -/
def execPitchInfo (pitch : BitVec 6) (s : State) : Out :=
  acceptUnit s fun s => .next (setResult (.pitchInfo (pitchInfo pitch)) s)

/-- `articulationName` issued on its own: `FINFO.widx` and `FINFO.word` are present, as for every InvalidArticulation; the
word its code comes from is not at hand, so what they hold is a free value (R166, R280; log 15). -/
def execArticulationName (code : BitVec 4) (s : State) : Out :=
  acceptUnit s fun s => finish .articulation
    (nameArticulation code (some (Config.openWordIndex s.freeDraws)) (some (Config.openNoteWord s.freeDraws))
      (if (articulation code).isSome then s else { s with freeDraws := s.freeDraws + 1 }))

/-- `decodeTempo` (R167). -/
def execDecodeTempo (w : Word) (s : State) : Out :=
  acceptUnit s fun s => .next (setResult (.bpm (decodeTempo w)) s)

/-- `encodeTempo` (R168). -/
def execEncodeTempo (bpm15 : Nat) (s : State) : Out :=
  acceptUnit s fun s => .next (setResult (.plainWord (encodeTempo bpm15)) s)

/-- `encodeNote` (R169). -/
def execEncodeNote (pitch : BitVec 6) (duration : BitVec 7) (art : BitVec 4) (triplet : BitVec 1) (hi : BitVec 2)
    (s : State) : Out :=
  acceptUnit s fun s =>
    .next (setResult (.maybeWord (encodeNote
      { pitch := pitch, duration := duration, art := art, triplet := triplet, hi := hi })) s)

end Sys2Proof.Machine
end

