-- ==== Sys2Proof/Machine/BlockParser.lean ====
section
/-! DEFINITION. BP, the block parser and validator (43_block_parser.md). What a block operation does with one word is a
definition of its own, so that the operations, and the words of the tape as instructions, share it. -/

namespace Sys2Proof.Machine

/-- A word of a block as `readBlockWord` delivers it: the word, the gap before it and its index on the tape (R191). -/
structure BlockWord where
  w : Word
  g : Nat
  j : Nat
  deriving DecidableEq, Repr

/-- `readBlockWord`: `readWord` with the end of the stream turned into UnexpectedEOF (R191). DESIGN CHOICE (log 33): the
precondition of `readWord` on `gap` (R133) is not asked here. A block operation issued with blank frames already counted is
not refused, since R192 and R194 list `fcnt` = 0 only, and they are part of the gap `g` of its first word. -/
def readBlockWord (s : State) : Act BlockWord :=
  (fuRead s).bind fun r s' =>
    match r with
    | .word w g => .done { w := w, g := g, j := s.widx } s'
    | .endOfStream g =>
      .raised (raise .unexpectedEOF { infoAt (some s.widx) s' with gap := some g } s')

/-! ### A Notes block -/

/-- What `parseNotesBlock` clears before it reads: the sums, the buffer, the index (R192). -/
def beginNotes (s : State) : State :=
  { s with
    blk := .notes, notesValid := false, sumIn := 0#18, sumOut := 0#18, idx := 0, notes := [], notesCount := 0#18 }

/-- The count word `n` of a Notes block, read after a gap `g`, which is the leader gap for voice 1 (R192). -/
def takeNotesCount (n : Word) (g : Nat) (s : State) : State :=
  let s1 := if s.seq = .expectLeaderGap then copyGap g (emit (.gap .leader g) s) else s
  let s2 := { s1 with seq := .expectNotesBlock, count := n, notesCount := n }
  copyWord n (emit (.count s2.voice .notes n) s2)

/-- `tempoSubst(w)`: a tempo word is replaced whole under an override of the Tweak run (R197). -/
def tempoSubst (w : Word) (s : State) : Word :=
  if s.mode = .tweak ∧ s.tempoEn = true ∧ classify w = .tempo then encodeTempo s.tempoOvr.toNat else w

/-- `noteContent(w, i, j)`: report the word by its class and yield the word to write (R193). -/
def noteContent (w : Word) (i j : Nat) (s : State) : Act Word :=
  match classify w with
  | .tempo =>
    let wOut := tempoSubst w s
    .done wOut (emit (.tempo s.voice i w (tempo15 w) (decodeTempo w) wOut) s)
  | .sep => .done w (emit (.sep s.voice i) s)
  | .note =>
    let n := noteFields w
    (nameArticulation n.art (some j) (some w) s).bind fun name s' =>
      .done w (emit (.note s'.voice i w n name (noteDuration n.duration n.triplet) (pitchInfo n.pitch)) s')

/-- A content word of a Notes block: stored and summed as read, then interpreted, then summed and written as rewritten
(R192). -/
def takeNotesContent (w : Word) (j : Nat) (s : State) : Act Unit :=
  let s1 := { s with notes := s.notes.write s.idx w, sumIn := csAdd s.sumIn w }
  (noteContent w s1.idx j s1).bind fun wOut s2 =>
    let s3 := copyWord wOut { s2 with sumOut := csAdd s2.sumOut wOut }
    .done () { s3 with idx := s3.idx + 1 }

/-- The checksum word of a Notes block: verified against the input sum, replaced on output by the sum of the rewritten
words (R192, R198). -/
def takeNotesChecksum (c : Word) (j : Nat) (s : State) : Act Unit :=
  (csVerify c s.sumIn (some j) s).bind fun _ s1 =>
    let s2 := copyWord s1.sumOut (emit (.checksum s1.voice .notes c s1.sumIn (some s1.sumOut)) s1)
    .done () { s2 with notesValid := true, seq := .expectGap1 }

/-- The loop of `parseNotesBlock` over the content words still to read (R192). -/
def notesLoop : Nat → State → Act Unit
  | 0, s => .done () s
  | n + 1, s =>
    (readBlockWord s).bind fun r s1 => (takeNotesContent r.w r.j s1).bind fun _ s2 => notesLoop n s2

/-- The body of `parseNotesBlock` (R192). -/
def parseNotes (s : State) : Act Unit :=
  (readBlockWord (beginNotes s)).bind fun r s1 =>
    let s2 := takeNotesCount r.w r.g s1
    (notesLoop s2.count.toNat s2).bind fun _ s3 =>
      (readBlockWord s3).bind fun c s4 => takeNotesChecksum c.w c.j s4

/-! ### A Bars block -/

/-- The end of a bar: the first separator at or after `i` among the next `n` cells, or the end of them (R196). -/
def sliceEnd (m : Memory) : Nat → Nat → Nat
  | i, 0 => i
  | i, n + 1 => if m.read i = some Config.sep then i else sliceEnd m (i + 1) n

/-- `barSlice(k)`: the words of `NOTES` from `k` up to the next separator or the end of the array (R196). -/
def barSlice (k : Word) (s : State) : Except Fault (List Word) :=
  let e := sliceEnd s.notes k.toNat (s.notesCount.toNat - k.toNat)
  s.notes.readRange k.toNat (e - k.toNat)

/-- What `parseBarsBlock` sets before it reads (R194). -/
def beginBars (s : State) : State := { s with blk := .bars, sumIn := 0#18, idx := 0 }

/-- The count word `n` of a Bars block, index `j`, read after the Notes/Bars gap `g`, which must not be 0 (R194). -/
def takeBarsCount (n : Word) (g j : Nat) (s : State) : Act Unit :=
  if g = 0 then
    .raised (raise .structuralError { infoAt (some j) s with sub := some 1, gap := some 0 } s)
  else
    let s1 := copyGap g (emit (.gap .notesBars g) s)
    let s2 := { s1 with seq := .expectBarsBlock, count := n }
    .done () (copyWord n (emit (.count s2.voice .bars n) s2))

/-- `barContent(w, i, j)`: the separator first, then the bounds check, then the bar (R195). -/
def barContent (w : Word) (i j : Nat) (s : State) : Act Unit :=
  if w = Config.sep then .done () (emit (.barSep s.voice i) s)
  else if s.notesCount.toNat ≤ w.toNat then
    .raised (raise .indexOutOfRange
      { infoAt (some j) s with index := some w, notesCount := some s.notesCount } s)
  else
    match barSlice w s with
    | .ok ws => .done () (emit (.bar s.voice i w ws) s)
    | .error f => .stuck f

/-- A content word of a Bars block: summed, checked, copied through unmodified (R194). -/
def takeBarsContent (w : Word) (j : Nat) (s : State) : Act Unit :=
  let s1 := { s with sumIn := csAdd s.sumIn w }
  (barContent w s1.idx j s1).bind fun _ s2 =>
    let s3 := copyWord w s2
    .done () { s3 with idx := s3.idx + 1 }

/-- The checksum word of a Bars block; the last act is the peek, whose result goes to the host sequence (R194, R202). -/
def takeBarsChecksum (c : Word) (j : Nat) (s : State) : Act (Bool × Nat) :=
  (csVerify c s.sumIn (some j) s).bind fun _ s1 =>
    if barsCountMismatch s1.count s1.idx then
      .raised (raise .structuralError { infoAt (some j) s1 with sub := some 2 } s1)
    else
      let s2 := copyWord c (emit (.checksum s1.voice .bars c s1.sumIn none) s1)
      let s3 := { s2 with notesValid := false, seq := .expectGap2 }
      .done (fuPeek s3) s3

/-- The loop of `parseBarsBlock` over the content words still to read (R194). -/
def barsLoop : Nat → State → Act Unit
  | 0, s => .done () s
  | n + 1, s =>
    (readBlockWord s).bind fun r s1 => (takeBarsContent r.w r.j s1).bind fun _ s2 => barsLoop n s2

/-- The body of `parseBarsBlock` (R194). -/
def parseBars (s : State) : Act (Bool × Nat) :=
  (readBlockWord (beginBars s)).bind fun r s1 =>
    (takeBarsCount r.w r.g r.j s1).bind fun _ s2 =>
      (barsLoop s2.count.toNat s2).bind fun _ s3 =>
        (readBlockWord s3).bind fun c s4 => takeBarsChecksum c.w c.j s4

/-! ### The operations -/

/-- `parseNotesBlock` with its preconditions (R192). -/
def execParseNotesBlock (s : State) : Out :=
  accept s <| require (s.status.running = true) .notRunning <|
    require (s.seq = .expectLeaderGap ∨ s.seq = .expectNotesBlock) .wrongSequence <|
      require (s.fcnt = 0#2) .midWord <| finish (fun _ => Result.none) (parseNotes s)

/-- `parseBarsBlock` with its preconditions (R194, R311). -/
def execParseBarsBlock (s : State) : Out :=
  accept s <| require (s.status.running = true) .notRunning <| require (s.seq = .expectGap1) .wrongSequence <|
    require (s.notesValid = true) .notesNotValid <| require (s.fcnt = 0#2) .midWord <|
      finish (fun p => Result.peek p.1 p.2) (parseBars s)

/-- `parseTempoSubstitution`: `parseNotesBlock` issued with `MODE = TWEAK`, refused with `DECODE` (R197). -/
def execParseTempoSubstitution (s : State) : Out :=
  accept s <| require (s.mode = .tweak) .notTweak <| execParseNotesBlock s

/-- `barSlice` issued on its own: `k` must be below `notes_count` (R196; log 22). -/
def execBarSlice (k : Word) (s : State) : Out :=
  acceptUnit s fun s => require (k.toNat < s.notesCount.toNat) .indexNotInNotes <|
    match barSlice k s with
    | .ok ws => .next (setResult (.words ws) s)
    | .error f => .fault f

end Sys2Proof.Machine
end

