-- ==== Sys2Proof/Machine/Sequencer.lean ====
section
/-! DEFINITION. The host sequence and the two runs (45_sequencer_host.md). -/

namespace Sys2Proof.Machine

/-- The end of the tape after a Bars block: the final gap is consumed, reported and passed through, and the run is done;
yields `Done(VOICE)` (R232, R236). -/
def endOfTape (g : Nat) (s : State) : Act (Option (BitVec 3)) :=
  (fuRead s).bind fun _ s1 =>
    let s2 := { copyGap g (emit (.gap .final g) s1) with seq := .endOfTape }
    let s3 := setDone (emit (.ended s2.voice s2.widx s2.ipos s2.opos) s2)
    .done (some s3.voice) s3

/-- On to the next voice: the inter-voice gap is reported as read and written with the configured length (R232, R235). -/
def nextVoice (g : Nat) (s : State) : State :=
  let s1 := copyGap s.gapLen (emit (.gap .interVoice g) s)
  { s1 with voice := s1.voice + 1#3, seq := .expectNotesBlock }

/-- What `run` decides on the peek after a Bars block; `some v` is the run's outcome `Done(v)`, `none` that another voice
follows (R232, R237, R238). -/
def afterBars (p : Bool × Nat) (s : State) : Act (Option (BitVec 3)) :=
  if p.1 then
    if s.voice = lastVoice then
      .raised (raise .unexpectedTrailingData { infoAt (some s.widx) s with gap := some p.2 } s)
    else .done none (nextVoice p.2 s)
  else endOfTape p.2 s

/-- One pass of the loop of `run`: a Notes block, a Bars block, the decision (R232). -/
def runVoice (s : State) : Act (Option (BitVec 3)) :=
  (parseNotes s).bind fun _ s1 => (parseBars s1).bind fun p s2 => afterBars p s2

/-- `run`, at most `n` passes; from voice 1 four are enough, since the pass of voice 4 never goes on (R232). -/
def runVoices : Nat → State → Act (BitVec 3)
  | 0, s => .done s.voice s
  | n + 1, s =>
    (runVoice s).bind fun o s1 =>
      match o with
      | some v => .done v s1
      | none => runVoices n s1

/-- Every register but the configuration is at its reset value (R264), and nothing but the configuration operations has
been accepted since `coreReset`: `driven` is at its reset value too (R303; log 14). What else is no register of the spec is
left out (log 24). -/
abbrev atReset (s : State) : Prop :=
  s = { State.reset with
        mode := s.mode, tempoEn := s.tempoEn, tempoOvr := s.tempoOvr, gapLen := s.gapLen, tape := s.tape,
        port := s.port, level := s.level, result := s.result, wordGap := s.wordGap,
        streamEnded := s.streamEnded, freeDraws := s.freeDraws }

/-- `STATUS.RUNNING <- 1 ; run()` (R264). -/
def startRun (s : State) : Out := finish Result.runDone (runVoices Config.voices (setRunning s))

end Sys2Proof.Machine
end

