-- ==== Sys2Proof/Machine/Control.lean ====
section
/-! DEFINITION. The control operations `coreReset`, `setMode`, `setTempo`, `setGapLen`, `start` (46_control_ops.md), and the
runs `runDecoder`, `runTweak` (R240, R241). -/

namespace Sys2Proof.Machine

/-- Every register at its reset value; the tape is not state of CORE and stays, and so do the operations still pending
and the model's counter of free values (R53, R260; log 16). -/
def resetRegisters (s : State) : State :=
  { State.reset with tape := s.tape, port := s.port, level := s.level, freeDraws := s.freeDraws }

/-- `coreReset`: accepted in every state (R260). -/
def execCoreReset (s : State) : Out := .next (resetRegisters s)

/-- The precondition of the configuration operations: after reset and before `start` (R261, R317). -/
def configure (s t : State) : Out :=
  accept s <| require (s.status.running = false) .running <| .next (setResult .none t)

/-- `setMode`: `MODE <- mode` (R261). -/
def execSetMode (mode : Mode) (s : State) : Out := configure s { s with mode := mode }

/-- `setTempo`: `TEMPO_EN <- en ; TEMPO_OVR <- tempo15` (R262). -/
def execSetTempo (en : Bool) (tempo15 : Tempo15) (s : State) : Out :=
  configure s { s with tempoEn := en, tempoOvr := tempo15 }

/-- `setGapLen`: `GAP_LEN <- n` (R263). -/
def execSetGapLen (n : Nat) (s : State) : Out := configure s { s with gapLen := n }

/-- `start`: the whole run, from reset apart from the configuration (R264). -/
def execStart (s : State) : Out := accept s <| require (atReset s) .notAtReset <| startRun s

/-- `runDecoder`: `MODE <- DECODE ; start()` (R240). -/
def execRunDecoder (s : State) : Out :=
  accept s <| require (atReset s) .notAtReset <| startRun { s with mode := .decode }

/-- `runTweak`: `MODE <- TWEAK ; start()` (R241). -/
def execRunTweak (s : State) : Out :=
  accept s <| require (atReset s) .notAtReset <| startRun { s with mode := .tweak }

end Sys2Proof.Machine
end

