-- ==== Sys2Proof/Machine/FramePacker.lean ====
section
/-! DEFINITION. TE, the frame packer: `writeWord`, `writeGap`, `encodeFrame` (44_frame_packer.md). -/

namespace Sys2Proof.Machine

/-- `writeWord`: append the three frames of the word; refused in `DECODE` mode (R222, R225). -/
def execWriteWord (w : Word) (s : State) : Out :=
  acceptUnit s fun s => require (s.mode = .tweak) .decodeMode <| .next (setResult .none (putWord w s))

/-- `writeGap`: append `n` zero frames; refused in `DECODE` mode (R223, R225). -/
def execWriteGap (n : Nat) (s : State) : Out :=
  acceptUnit s fun s => require (s.mode = .tweak) .decodeMode <| .next (setResult .none (putGap n s))

/-- `encodeFrame`, pure (R221). -/
def execEncodeFrame (w : Word) (s : State) : Out :=
  acceptUnit s fun s =>
    .next (setResult (.frames (encodeFrame w).1 (encodeFrame w).2.1 (encodeFrame w).2.2) s)

end Sys2Proof.Machine
end

