-- ==== Sys2Proof/Machine/TapeItems.lean ====
section
/-! DEFINITION. The items of the tape as instructions. The tape is the instruction stream (30_encoding.md): a frame is what
FU does with it once it has consumed it (R132), a word is what the block operation in progress does with it once FU has
delivered it (R192 to R195). Where in a block a word stands is read from `SEQ`, `blk`, `idx` and `count` (R94; log 21). -/

namespace Sys2Proof.Machine

/-- The position in the block structure at which the next word of a run stands (R94, R101, R231). -/
def position (s : State) : Option WordPos :=
  if s.status.running = true then
    match s.seq with
    | .expectLeaderGap => some .notesCount
    | .expectNotesBlock =>
      if s.blk = .notes then (if s.idx < s.count.toNat then some .notesContent else some .notesChecksum)
      else some .notesCount
    | .expectGap1 => some .barsCount
    | .expectBarsBlock => if s.idx < s.count.toNat then some .barsContent else some .barsChecksum
    | .expectGap2 => none
    | .endOfTape => none
    | .faulted => none
  else none

/-- The index on the tape of the word FU has just delivered (R135). -/
def lastIndex (s : State) : Nat := s.widx - 1

/-- A content word, of whichever block is in progress (R192, R194). -/
def contentWord (w : Word) (s : State) : Out :=
  match position s with
  | some .notesContent => finish (fun _ => Result.none) (takeNotesContent w (lastIndex s) s)
  | some .barsContent => finish (fun _ => Result.none) (takeBarsContent w (lastIndex s) s)
  | _ => .refused .notAtPosition

/-- BIN: FU takes a binary frame (R90, R132). Bit 6 is ignored (R91). -/
def execBin (bit6 : BitVec 1) (data : Data6) (s : State) : Out :=
  acceptUnit s fun s => finish frameResult (fuFrame (1#1 ++ bit6 ++ data) s)

/-- BLANK: FU takes a blank frame (R90, R132). Bits 6:0 are ignored (R91). -/
def execBlank (low : BitVec 7) (s : State) : Out :=
  acceptUnit s fun s => finish frameResult (fuFrame (0#1 ++ low) s)

/-- SEP: a separator as content of a Notes or a Bars block (R95, R193, R195). -/
def execSep (s : State) : Out :=
  accept s <| require (s.status.running = true) .notRunning <| contentWord Config.sep s

/-- TEMPO: a tempo word as content of a Notes block (R96, R193). -/
def execTempo (t : Tempo15) (s : State) : Out :=
  accept s <| require (s.status.running = true) .notRunning <|
    require (position s = some .notesContent) .notAtPosition <| contentWord (tempoWord t) s

/-- NOTE: a note word as content of a Notes block (R99, R193). -/
def execNote (hi : BitVec 2) (triplet : BitVec 1) (artMid : BitVec 2) (shared : BitVec 1) (pitchLow : BitVec 5)
    (duration : BitVec 7) (s : State) : Out :=
  accept s <| require (s.status.running = true) .notRunning <|
    require (position s = some .notesContent) .notAtPosition <|
      contentWord (noteWord hi triplet artMid shared pitchLow duration) s

/-- COUNT: the first word of a block, with all that the block operation does before it reads on (R101, R192, R194).
DESIGN CHOICE (log 31): the item is accepted by `SEQ` alone. With `SEQ` = `ExpectNotesBlock` it begins a Notes block even
where `blk` is `NOTES` and a word of a Notes block half read is due: it clears the buffer and begins anew. The spec has no
state between two words of a block operation (R94, R311), and no step brings a COUNT there: a word is decoded by its
`position`. -/
def execCount (n : Word) (s : State) : Out :=
  accept s <| require (s.status.running = true) .notRunning <|
    if s.seq = .expectLeaderGap ∨ s.seq = .expectNotesBlock then
      .next (setResult .none (takeNotesCount n s.wordGap (beginNotes s)))
    else if s.seq = .expectGap1 then
      require (s.notesValid = true) .notesNotValid <|
        finish (fun _ => Result.none) (takeBarsCount n s.wordGap (lastIndex s) (beginBars s))
    else .refused .notAtPosition

/-- CHECKSUM: the last word of a block (R101, R192, R194). -/
def execChecksum (c : Word) (s : State) : Out :=
  accept s <| require (s.status.running = true) .notRunning <|
    match position s with
    | some .notesChecksum => finish (fun _ => Result.none) (takeNotesChecksum c (lastIndex s) s)
    | some .barsChecksum => finish (fun p => Result.peek p.1 p.2) (takeBarsChecksum c (lastIndex s) s)
    | _ => .refused .notAtPosition

/-- INDEX: an index word as content of a Bars block (R103, R195). -/
def execIndex (k : Word) (s : State) : Out :=
  accept s <| require (s.status.running = true) .notRunning <|
    require (position s = some .barsContent) .notAtPosition <| contentWord k s

end Sys2Proof.Machine
end

