-- ==== Sys2Proof/Machine/Dispatch.lean ====
section
/-! DEFINITION. The dispatch of an instruction to its meaning. -/

namespace Sys2Proof.Machine

/-- The meaning of each instruction. -/
def exec (i : Instr) (s : State) : Host.Outcome State Fault Refusal :=
  match i with
  | .coreReset => Sys2Proof.Machine.execCoreReset s
  | .setMode mode => Sys2Proof.Machine.execSetMode mode s
  | .setTempo en t => Sys2Proof.Machine.execSetTempo en t s
  | .setGapLen n => Sys2Proof.Machine.execSetGapLen n s
  | .start => Sys2Proof.Machine.execStart s
  | .fuStep => Sys2Proof.Machine.execFuStep s
  | .fuEnd => Sys2Proof.Machine.execFuEnd s
  | .readWord => Sys2Proof.Machine.execReadWord s
  | .peekGap => Sys2Proof.Machine.execPeekGap s
  | .decodeFrame f0 f1 f2 => Sys2Proof.Machine.execDecodeFrame f0 f1 f2 s
  | .add sum word => Sys2Proof.Machine.execAdd sum word s
  | .verify expected computed => Sys2Proof.Machine.execVerify expected computed s
  | .classify w => Sys2Proof.Machine.execClassify w s
  | .decode w => Sys2Proof.Machine.execDecode w s
  | .pitchInfo pitch => Sys2Proof.Machine.execPitchInfo pitch s
  | .articulationName code => Sys2Proof.Machine.execArticulationName code s
  | .decodeTempo w => Sys2Proof.Machine.execDecodeTempo w s
  | .encodeTempo n => Sys2Proof.Machine.execEncodeTempo n s
  | .encodeNote pitch duration art triplet hi => Sys2Proof.Machine.execEncodeNote pitch duration art triplet hi s
  | .parseNotesBlock => Sys2Proof.Machine.execParseNotesBlock s
  | .parseBarsBlock => Sys2Proof.Machine.execParseBarsBlock s
  | .parseTempoSubstitution => Sys2Proof.Machine.execParseTempoSubstitution s
  | .barSlice k => Sys2Proof.Machine.execBarSlice k s
  | .writeWord w => Sys2Proof.Machine.execWriteWord w s
  | .writeGap n => Sys2Proof.Machine.execWriteGap n s
  | .encodeFrame w => Sys2Proof.Machine.execEncodeFrame w s
  | .runDecoder => Sys2Proof.Machine.execRunDecoder s
  | .runTweak => Sys2Proof.Machine.execRunTweak s
  | .bin bit6 data => Sys2Proof.Machine.execBin bit6 data s
  | .blank low => Sys2Proof.Machine.execBlank low s
  | .sep => Sys2Proof.Machine.execSep s
  | .tempo t => Sys2Proof.Machine.execTempo t s
  | .note hi triplet artMid shared pitchLow duration => Sys2Proof.Machine.execNote hi triplet artMid shared pitchLow duration s
  | .count n => Sys2Proof.Machine.execCount n s
  | .checksum c => Sys2Proof.Machine.execChecksum c s
  | .index k => Sys2Proof.Machine.execIndex k s

end Sys2Proof.Machine
end

