-- ==== Sys2Proof/Machine/Fetch.lean ====
section
/-! DEFINITION. Where the next instruction comes from (log 6): the command port (R110), the frame at `ipos` (R132), or the
next word of the tape in a run, with the host sequence between the words (R232). -/

namespace Sys2Proof.Machine

/-- What fetching answers: an instruction to execute and the state to execute it in, or the whole outcome of a step that
executes none. -/
inductive Fetched where
  | run (i : Instr) (s : State)
  | settled (o : Out)

/-- The next operation of the command port, its bytes taken; with nothing pending the machine waits (log 7). -/
def fetchOperation (s : State) : Fetched :=
  match s.port with
  | [] => .settled (.next s)
  | b :: bs =>
    match decode .port (b :: bs) with
    | .ok (i, rest) => .run i { s with port := rest }
    | .error e => .settled (.refused (.undecodable e))

/-- The frame at `ipos`, consumed; at the end of the stream `fuEnd` stands in its place (R132, R134). -/
def fetchFrame (s : State) : Fetched :=
  match nextFrame s with
  | some f => .run (decodeFrameItem f) (passFrame s)
  | none => .run .fuEnd s

/-- What a block operation does before it reads its count word; nothing before any other word (R192, R194). -/
def beginBlock (pos : WordPos) (s : State) : State :=
  match pos with
  | .notesCount => beginNotes s
  | .barsCount => beginBars s
  | .notesContent => s
  | .notesChecksum => s
  | .barsContent => s
  | .barsChecksum => s

/-- The outcome of `Done(VOICE)`, or nothing yet when another voice follows (R232). -/
def decisionResult : Option (BitVec 3) → Result
  | some v => .runDone v
  | none => .none

/-- The next word of the tape where one is due, read by FU as `readBlockWord` reads it (R191). -/
def fetchDueWord (pos : WordPos) (s : State) : Fetched :=
  if s.fcnt = 0#2 then
    if pos = .barsCount ∧ s.notesValid = false then .settled (.refused .notesNotValid)
    else
      match readBlockWord (beginBlock pos s) with
      | .done r s' => .run (decodeWordAt pos r.w) s'
      | .raised s' => .settled (.next (faultResult s'))
      | .stuck f => .settled (.fault f)
  else .settled (.refused .midWord)

/-- The next step of a run taken word by word: the next word due, or after a Bars block the decision of `run` (R232);
where no run is in progress the machine waits (log 7). -/
def fetchWord (s : State) : Fetched :=
  if s.status.running = true ∧ s.fault = 0#4 ∧ s.status.done = false then
    match position s with
    | some pos => fetchDueWord pos s
    | none =>
      if s.seq = .expectGap2 then .settled (finish decisionResult (afterBars (fuPeek s) s))
      else .settled (.next s)
  else .settled (.next s)

/-- The next instruction, by what a step takes. -/
def fetch (s : State) : Fetched :=
  match s.level with
  | .operation => fetchOperation s
  | .word => fetchWord s
  | .frame => fetchFrame s

/-- The tape with the given frames at `ipos` and none after them; positions missing before `ipos` are blank. -/
def tapeWith (fs : List Frame) (s : State) : List Frame :=
  (s.tape ++ List.replicate (s.ipos - s.tape.length) 0#8).take s.ipos ++ fs

/-- The bytes of a table word as an instruction at the port: the operation with operands of zeros, exactly as long as it
is; bytes that are no operation as they are. -/
def portBytes (nbits w : Nat) : List Byte :=
  match decodeTableWord nbits w with
  | some i => encode i
  | none => tableBytes nbits w

/-- A table word stored where the next step fetches it (log 8). An operation goes to the port. A frame goes to `ipos`.
A word goes to `ipos` as content of a Notes block in progress: FU between words, `RUNNING` set, and one content word due. -/
def placeWord (nbits w : Nat) (s : State) : State :=
  match tableSource nbits w with
  | .port => { s with level := .operation, port := portBytes nbits w }
  | .frame => { s with level := .frame, tape := tapeWith (tableBytes nbits w) s }
  | .word _ =>
    { setRunning s with
      level := .word, tape := tapeWith (tableBytes nbits w) s, fcnt := 0#2, seq := .expectNotesBlock, blk := .notes,
      idx := 0, count := 1#18 }

end Sys2Proof.Machine
end

