-- ==== Sys2Proof/Safety.lean ====
section
/-! DEFINITION. What claims about the machine are stated with: the conditions under which an operation is accepted, and the
invariant of the machine. -/

namespace Sys2Proof.Machine

/-- No fault is held and the run has not ended: the condition every operation but `coreReset` has (R52, U20). -/
abbrev Ready (s : State) : Prop := s.fault = 0#4 ∧ s.status.done = false

/-- A frame TE can produce: a binary frame with bit 6 clear, or 0 (R17, R226). -/
abbrev canonical (f : Frame) : Prop := f = 0#8 ∨ (isBinary f = true ∧ f.getLsbD 6 = false)

/-- A Notes block has been begun and its checksum word is still to come (R192, R231). -/
abbrev midNotes (s : State) : Prop := s.seq = .expectNotesBlock ∧ s.blk = .notes

/-- The four registers that are defined after a fault, as fault entry leaves them (R281). -/
abbrev faultHeld (k : FaultKind) (info : FInfo) (t : State) : Prop :=
  t.fault = k.code ∧ t.finfo = info ∧ t.seq = .faulted ∧
    t.status = { running := false, done := false, outValid := false }

/-- What holds of the registers while no fault is held. (After a fault the spec defines `FAULT`, `FINFO`, `SEQ` and
`STATUS` only, R281, and nothing is said of the others.) -/
structure Live (s : State) : Prop where
  /-- R30: `0 <= ipos <= len(IN)`. -/
  tapePosition : s.ipos ≤ s.tape.length
  /-- R133: after an `EndOfStream` nothing remains to be read. -/
  streamEnd : s.streamEnded = true → s.ipos = s.tape.length
  /-- R43: `opos` equals `len(OUT)`. -/
  outCounted : s.opos = s.out.length
  /-- R226: every frame TE appends is canonical. -/
  outCanonical : ∀ f ∈ s.out, canonical f
  /-- R31: `fcnt` has the values 0, 1, 2. -/
  groupCount : s.fcnt.toNat ≤ 2
  /-- R32: `acc` holds 6 bits for each frame assembled, none at a word boundary. -/
  groupBits : s.acc.toNat < 64 ^ s.fcnt.toNat
  /-- R44: `VOICE` has the values 1 to 4. -/
  voiceNumber : 1 ≤ s.voice.toNat ∧ s.voice.toNat ≤ 4
  /-- R39: `0 <= idx <= count`. -/
  indexInBlock : s.idx ≤ s.count.toNat
  /-- The canonical form of `NOTES`. -/
  notesCanonical : s.notes.wf
  /-- R41, R66: the defined cells are those written: `notes_count` of them, or `idx` while a Notes block is read. -/
  notesCells : s.notes.map Prod.fst = List.range (if midNotes s then s.idx else s.notesCount.toNat)
  /-- R192: while a Notes block is read, `notes_count` is its count word. -/
  notesCounted : midNotes s → s.notesCount = s.count
  /-- R38, R194: during and after a Bars block `blk` says so. -/
  barsBegun : s.seq = .expectBarsBlock ∨ s.seq = .expectGap2 → s.blk = .bars
  /-- R42, R192, R194: `notes_valid` is set exactly from the end of a Notes block to the end of the voice's Bars block. -/
  bufferHeld : s.notesValid = true ↔ s.seq = .expectGap1 ∨ s.seq = .expectBarsBlock

/-- The invariant of the machine: it holds at reset and every step keeps it. -/
structure Inv (s : State) : Prop where
  /-- While no fault is held every register is as `Live` says. -/
  live : s.fault = 0#4 → Live s
  /-- R15: between two operations of the port no block is half read. -/
  blockWhole : s.level = .operation → ¬ midNotes s
  /-- R271, R279: `FAULT` holds one of the codes 0 to 7. -/
  faultCode : s.fault.toNat ≤ 7
  /-- R45, R281: `SEQ` is `Faulted` exactly after a fault. -/
  faultedSeq : s.seq = .faulted ↔ s.fault ≠ 0#4
  /-- R45, R51: `SEQ` is `EndOfTape` exactly after a completed run. -/
  endedSeq : s.seq = .endOfTape ↔ s.status.done = true
  /-- R281: the flags after a fault. -/
  faultFlags : s.fault ≠ 0#4 → s.status = { running := false, done := false, outValid := false }
  /-- R51: `OUT_VALID` is set together with `DONE` in `TWEAK` mode, and `RUNNING` is cleared. -/
  doneFlags : s.status.done = true → s.status.running = false ∧ s.status.outValid = decide (s.mode = .tweak)
  /-- R51, R290: `OUT_VALID` never without `DONE`. -/
  outValidDone : s.status.outValid = true → s.status.done = true
  /-- R52: `FINFO` is the empty record exactly while no fault is held. -/
  finfoEmpty : s.finfo = {} ↔ s.fault = 0#4

/-! ### Sequences of operations -/

/-- Execute instructions one after the other, stopping at the first that answers no next state. -/
def execAll : List Instr → State → Out
  | [], s => .next s
  | i :: is, s =>
    match exec i s with
    | .next t => execAll is t
    | .fault f => .fault f
    | .refused r => .refused r

/-- The mode a configuration operation writes (R261). -/
def modeSet : Instr → Option Mode
  | .setMode m => some m
  | _ => none

/-- The override a configuration operation writes (R262). -/
def tempoSet : Instr → Option (Bool × Tempo15)
  | .setTempo en t => some (en, t)
  | _ => none

/-- The gap length a configuration operation writes (R263). -/
def gapLenSet : Instr → Option Nat
  | .setGapLen n => some n
  | _ => none

/-- The three configuration operations (R303). -/
def configures (i : Instr) : Bool := (modeSet i).isSome || (tempoSet i).isSome || (gapLenSet i).isSome

/-- The last value that a sequence of operations writes. -/
def lastSet {α : Type} (f : Instr → Option α) (is : List Instr) : Option α := (is.filterMap f).getLast?

/-! ### Two runs compared -/

/-- The record of the output tape that corresponds to a record of the input tape when no word is changed: the inter-voice
gaps have the configured length, the end counts the frames of the output (R243). -/
def regapped (gapLen framesIn : Nat) : Event → Event
  | .gap .interVoice _ => .gap .interVoice gapLen
  | .ended v w _ o => .ended v w framesIn o
  | e => e

/-- A word with its tempo parameter replaced, where it is a tempo word (R197). -/
def retempoWord (t : Tempo15) (w : Word) : Word := if classify w = .tempo then tempoWord t else w

/-- The record of the output tape that corresponds to a record of the input tape under a tempo override: as `regapped`,
and tempo words show the new parameter (R244). -/
def retempoed (t : Tempo15) (gapLen framesIn : Nat) (e : Event) : Event :=
  match e with
  | .tempo v i _ _ _ _ => .tempo v i (tempoWord t) t (decodeTempo (tempoWord t)) (tempoWord t)
  | .bar v i k ws => .bar v i k (ws.map (retempoWord t))
  | _ => regapped gapLen framesIn e

/-- The record of a Notes block's checksum. -/
def isNotesChecksum : Event → Bool
  | .checksum _ .notes _ _ _ => true
  | _ => false

end Sys2Proof.Machine
end

