-- ==== Sys2Proof/Safety/Tapes.lean ====
section
/-! DEFINITION. Tapes as the claims describe them: words with the gaps before them and the bits a decoder ignores, blocks,
voices (30_encoding.md), what a run reports of them (R47) and what the Tweak run writes for them (R241). -/

namespace Sys2Proof.Machine

/-- A word as it can stand on a tape: the blank frames before it, each with its seven ignored bits, and bit 6 of its three
frames, ignored too (R91, R93). -/
structure InkedWord where
  blanks : List (BitVec 7)
  x0 : BitVec 1
  x1 : BitVec 1
  x2 : BitVec 1
  w : Word
  deriving DecidableEq, Repr

/-- Blank frames with given low bits (R90). -/
def blankFrames (bs : List (BitVec 7)) : List Frame := bs.map fun b => 0#1 ++ b

/-- The frames of a word with its gap (R64, R90). -/
def InkedWord.frames (x : InkedWord) : List Frame :=
  blankFrames x.blanks ++
    [1#1 ++ x.x0 ++ x.w.extractLsb' 12 6, 1#1 ++ x.x1 ++ x.w.extractLsb' 6 6, 1#1 ++ x.x2 ++ x.w.extractLsb' 0 6]

/-- A group broken off before its third binary frame: the blank frames before it, one or two binary frames, and what stands
in place of the next (R90, R272). -/
def brokenGroup (blanks : List (BitVec 7)) (d0 : BitVec 7) (d1 : Option (BitVec 7)) (next : List Frame) : List Frame :=
  blankFrames blanks ++ (1#1 ++ d0) :: (d1.toList.map fun d => 1#1 ++ d) ++ next

/-- What breaks a group, by its sub-cause: a blank frame (1) or the end of the stream (2) (R272). -/
def breaksGroup : List Frame → Nat → Bool
  | [], sub => sub == 2
  | f :: _, sub => !isBinary f && sub == 1

/-- A block on a tape: count word, content words, checksum word (R101). -/
structure InkedBlock where
  count : InkedWord
  content : List InkedWord
  check : InkedWord
  deriving DecidableEq, Repr

/-- The content words of a block. -/
def InkedBlock.words (b : InkedBlock) : List Word := b.content.map (·.w)

/-- All words of a block in tape order (R101). -/
def InkedBlock.all (b : InkedBlock) : List InkedWord := b.count :: b.content ++ [b.check]

/-- The frames of a block. -/
def InkedBlock.frames (b : InkedBlock) : List Frame := b.all.flatMap InkedWord.frames

/-- The length of the gap before a block (R133). -/
def InkedBlock.gap (b : InkedBlock) : Nat := b.count.blanks.length

/-- A block whose count word counts its content (R101). -/
abbrev InkedBlock.counted (b : InkedBlock) : Prop := b.content.length < 262144 ∧ b.count.w = BitVec.ofNat 18 b.content.length

/-- A block whose checksum word is the checksum of its content (R155). -/
abbrev InkedBlock.summed (b : InkedBlock) : Prop := b.check.w = blockChecksum b.words

/-- A content word of a Notes block that raises nothing: a note word's articulation code is legal (R100). -/
abbrev legalContent (w : Word) : Prop := classify w = .note → (articulation (noteFields w).art).isSome = true

/-- A Notes block that raises nothing (R192, R282). -/
abbrev InkedBlock.notesOk (b : InkedBlock) : Prop := b.counted ∧ b.summed ∧ ∀ x ∈ b.content, legalContent x.w

/-- A Bars block that raises nothing beside `n` Notes words (R194, R195, R282). -/
abbrev InkedBlock.barsOk (b : InkedBlock) (n : Nat) : Prop :=
  b.counted ∧ b.summed ∧ 0 < b.gap ∧ ∀ x ∈ b.content, x.w = Config.sep ∨ x.w.toNat < n

/-- A voice: a Notes block and a Bars block (R105). -/
structure InkedVoice where
  notes : InkedBlock
  bars : InkedBlock
  deriving DecidableEq, Repr

/-- A voice that raises nothing. -/
abbrev InkedVoice.ok (v : InkedVoice) : Prop := v.notes.notesOk ∧ v.bars.barsOk v.notes.content.length

/-- The frames of a voice with the gap before it. -/
def InkedVoice.frames (v : InkedVoice) : List Frame := v.notes.frames ++ v.bars.frames

/-- The words of a voice, its count and checksum words included (R135). -/
def InkedVoice.wordCount (v : InkedVoice) : Nat := v.notes.all.length + v.bars.all.length

/-- A tape: voices, each with the gap before it, and the final gap (R105). -/
def tapeFrames (vs : List InkedVoice) (final : List (BitVec 7)) : List Frame :=
  vs.flatMap InkedVoice.frames ++ blankFrames final

/-! ### What a run reports (R47) -/

/-- The word written for a content word under a tempo override `o` (R197). -/
def substWord (o : Option Tempo15) (w : Word) : Word :=
  match o with
  | some t => if classify w = .tempo then tempoWord t else w
  | none => w

/-- The override in force in a state: only in `TWEAK` mode with `TEMPO_EN` = 1 (R197). -/
def override (s : State) : Option Tempo15 := if s.mode = .tweak ∧ s.tempoEn = true then some s.tempoOvr else none

/-- The record of a legal Notes content word (R193). -/
def contentEvent (v : BitVec 3) (o : Option Tempo15) (i : Nat) (w : Word) : Event :=
  match classify w with
  | .sep => .sep v i
  | .tempo => .tempo v i w (tempo15 w) (decodeTempo w) (substWord o w)
  | .note =>
    let n := noteFields w
    .note v i w n ((articulation n.art).getD .normal) (noteDuration n.duration n.triplet) (pitchInfo n.pitch)

/-- The records of the content of a Notes block from index `i` (R193). -/
def contentEvents (v : BitVec 3) (o : Option Tempo15) : Nat → List Word → List Event
  | _, [] => []
  | i, w :: ws => contentEvent v o i w :: contentEvents v o (i + 1) ws

/-- The bar an index word denotes: the words from it up to the next separator or the end of the Notes array (R196). -/
def barWords (notes : List Word) (k : Word) : List Word := (notes.drop k.toNat).takeWhile fun w => w != Config.sep

/-- The record of a Bars content word (R195). -/
def barEvent (v : BitVec 3) (notes : List Word) (i : Nat) (k : Word) : Event :=
  if k = Config.sep then .barSep v i else .bar v i k (barWords notes k)

/-- The records of the content of a Bars block from index `i` (R195). -/
def barEvents (v : BitVec 3) (notes : List Word) : Nat → List Word → List Event
  | _, [] => []
  | i, k :: ks => barEvent v notes i k :: barEvents v notes (i + 1) ks

/-- The records of a Notes block after its gap: count, content, checksum (R192). -/
def notesEvents (v : BitVec 3) (o : Option Tempo15) (b : InkedBlock) : List Event :=
  Event.count v .notes b.count.w :: contentEvents v o 0 b.words ++
    [.checksum v .notes b.check.w (blockChecksum b.words) (some (blockChecksum (b.words.map (substWord o))))]

/-- The records of a Bars block, its gap included (R194). -/
def barsEvents (v : BitVec 3) (notes : List Word) (b : InkedBlock) : List Event :=
  Event.gap .notesBars b.gap :: Event.count v .bars b.count.w :: barEvents v notes 0 b.words ++
    [.checksum v .bars b.check.w (blockChecksum b.words) none]

/-- The records of a voice (R192, R194). -/
def voiceEvents (v : BitVec 3) (o : Option Tempo15) (x : InkedVoice) : List Event :=
  notesEvents v o x.notes ++ barsEvents v x.notes.words x.bars

/-- The records of the voices from number `n` on, with the gaps after them (R232). -/
def voicesEvents (o : Option Tempo15) (final : Nat) : Nat → List InkedVoice → List Event
  | _, [] => []
  | n, [x] => voiceEvents (BitVec.ofNat 3 n) o x ++ [.gap .final final]
  | n, x :: y :: rest =>
    voiceEvents (BitVec.ofNat 3 n) o x ++ Event.gap .interVoice y.notes.gap :: voicesEvents o final (n + 1) (y :: rest)

/-- The gap before the first voice (R233). -/
def leaderGap : List InkedVoice → Nat
  | [] => 0
  | x :: _ => x.notes.gap

/-! ### What the Tweak run writes (R241) -/

/-- A block in canonical frames without interior gaps: count, content, checksum of that content (R198, R226). -/
def blockFrames (ws : List Word) : List Frame :=
  wordFrames (BitVec.ofNat 18 ws.length) ++ ws.flatMap wordFrames ++ wordFrames (blockChecksum ws)

/-- `n` zero frames (R223). -/
def gapFrames (n : Nat) : List Frame := List.replicate n 0#8

/-- The output of a voice: the Notes block rewritten, the Notes/Bars gap as read, the Bars block as read (R241). -/
def voiceOutput (o : Option Tempo15) (x : InkedVoice) : List Frame :=
  blockFrames (x.notes.words.map (substWord o)) ++ gapFrames x.bars.gap ++ blockFrames x.bars.words

/-- The output of the voices: `GAP_LEN` frames between two, the final gap as read after the last (R235, R236, R241). -/
def voicesOutput (o : Option Tempo15) (gapLen final : Nat) : List InkedVoice → List Frame
  | [] => []
  | [x] => voiceOutput o x ++ gapFrames final
  | x :: y :: rest => voiceOutput o x ++ gapFrames gapLen ++ voicesOutput o gapLen final (y :: rest)

/-- The whole output of a Tweak run: the leader gap, then the voices (R241). -/
def tweakOutput (o : Option Tempo15) (gapLen final : Nat) (vs : List InkedVoice) : List Frame :=
  gapFrames (leaderGap vs) ++ voicesOutput o gapLen final vs

/-! ### The Notes buffer as a list -/

/-- The cells that hold a list of words from index `i` on (R66). -/
def cellsFrom : Nat → List Word → Memory
  | _, [] => []
  | i, w :: ws => (i, w) :: cellsFrom (i + 1) ws

end Sys2Proof.Machine
end

