-- ==== Sys2Proof/Certificates/Slice0/Obligations.lean ====
section
/-! DEFINITION. The statements about the machine. Each docstring names the rules of spec/ it comes from. What a statement
says of the state after a fault is said of `FAULT`, `FINFO`, `SEQ` and `STATUS` only (R281). `drive s` is `s` but for the
model's own field `driven`, which notes an operation issued outside a run (R303; log 14); no register differs. -/

open Sys2Proof Sys2Proof.Machine

/-! ### Reset and configuration -/

/-- R53, R260: `coreReset` answers a next state in every state, and every register of R53 has the value listed there; the
tape stays. -/
def Obligations.CoreResetGivesResetValues : Prop :=
  ∀ s : State, ∃ t, exec .coreReset s = .next t ∧
    t.ipos = 0 ∧ t.fcnt = 0#2 ∧ t.acc = 0#18 ∧ t.gap = 0 ∧ t.widx = 0 ∧ t.sumIn = 0#18 ∧ t.sumOut = 0#18 ∧
    t.blk = .none ∧ t.count = 0#18 ∧ t.idx = 0 ∧ t.notesCount = 0#18 ∧ (∀ i, t.notes.read i = none) ∧
    t.notesValid = false ∧ t.out = [] ∧ t.opos = 0 ∧ t.voice = 1#3 ∧ t.seq = .expectLeaderGap ∧ t.ev = [] ∧
    t.mode = .decode ∧ t.tempoEn = false ∧ t.tempoOvr = 0#15 ∧ t.gapLen = 18 ∧
    t.status = { running := false, done := false, outValid := false } ∧ t.fault = 0#4 ∧ t.finfo = {} ∧
    t.tape = s.tape

/-- The model's own fields under `coreReset`: what the host has issued, the level and the counter of free values stay, the
result is empty. The model's choice (log 16). -/
def Obligations.CoreResetKeepsTheModelsOwnFields : Prop :=
  ∀ s : State, exec .coreReset s =
    .next { State.reset with tape := s.tape, port := s.port, level := s.level, freeDraws := s.freeDraws }

/-- The model's reset state meets the invariant. -/
def Obligations.ResetMeetsInvariant : Prop := Inv State.reset

/-- R261, R262, R263: before a run each configuration operation writes its registers and nothing else; during a run it is
refused. -/
def Obligations.ConfigurationOperationsWriteTheirRegister : Prop :=
  ∀ (s : State) (m : Mode) (en : Bool) (t : Tempo15) (n : Nat), Ready s →
    (s.status.running = false →
      exec (.setMode m) s = .next { s with mode := m, result := .none } ∧
      exec (.setTempo en t) s = .next { s with tempoEn := en, tempoOvr := t, result := .none } ∧
      exec (.setGapLen n) s = .next { s with gapLen := n, result := .none }) ∧
    (s.status.running = true →
      exec (.setMode m) s = .refused .running ∧ exec (.setTempo en t) s = .refused .running ∧
      exec (.setGapLen n) s = .refused .running)

/-- R304: any number of configuration operations in any order all complete, and leave in each register the last value
written to it, and every other register as it was. -/
def Obligations.LastConfigurationWriteWins : Prop :=
  ∀ (is : List Instr) (s : State), (∀ i ∈ is, configures i = true) → Ready s → s.status.running = false →
    ∃ t, execAll is s = .next t ∧
      t = { s with mode := t.mode, tempoEn := t.tempoEn, tempoOvr := t.tempoOvr, gapLen := t.gapLen,
                   result := t.result } ∧
      t.mode = (lastSet modeSet is).getD s.mode ∧
      (t.tempoEn, t.tempoOvr) = (lastSet tempoSet is).getD (s.tempoEn, s.tempoOvr) ∧
      t.gapLen = (lastSet gapLenSet is).getD s.gapLen

/-! ### The frame unpacker -/

/-- R132: `fuStep` on a binary frame assembles it or completes the word with its gap, on a blank frame counts it
between words and raises MalformedInput inside one; with no frame left it is refused. That it is accepted outside a
run too, noted by `drive`, is the model's reading (log 14, DEDUCED). -/
def Obligations.FuStepConsumesOneFrame : Prop :=
  ∀ (s : State) (f : Frame), Ready s → s.status.outValid = false →
    (s.tape[s.ipos]? = some f → isBinary f = true → s.fcnt ≠ 2#2 →
      exec .fuStep s = .next { drive s with ipos := s.ipos + 1, acc := (s.acc <<< 6) ||| (f.extractLsb' 0 6).setWidth 18,
                                            fcnt := s.fcnt + 1#2, streamEnded := false, result := .noWord }) ∧
    (s.tape[s.ipos]? = some f → isBinary f = true → s.fcnt = 2#2 →
      exec .fuStep s = .next { drive s with ipos := s.ipos + 1, acc := 0#18, fcnt := 0#2, gap := 0, widx := s.widx + 1,
                                            wordGap := s.gap, streamEnded := false,
                                            result := .word ((s.acc <<< 6) ||| (f.extractLsb' 0 6).setWidth 18) s.gap }) ∧
    (s.tape[s.ipos]? = some f → isBinary f = false → s.fcnt = 0#2 →
      exec .fuStep s = .next { drive s with ipos := s.ipos + 1, gap := s.gap + 1, streamEnded := false, result := .noWord }) ∧
    (s.tape[s.ipos]? = some f → isBinary f = false → s.fcnt ≠ 0#2 →
      ∃ t, exec .fuStep s = .next t ∧
        faultHeld .malformedInput { widx := some s.widx, blk := some s.blk, voice := some s.voice, sub := some 1 } t) ∧
    (s.tape[s.ipos]? = none → exec .fuStep s = .refused .noFrame)

/-- R90, R91, R132: a BIN or BLANK item executed is what FU does with such a frame once it is consumed, whatever its
ignored bits are. That it is accepted outside a run too, noted by `drive`, is the model's reading (log 14, DEDUCED).
-/
def Obligations.FrameItemsDriveTheUnpacker : Prop :=
  ∀ (s : State) (x : BitVec 1) (d : Data6) (b : BitVec 7), Ready s → s.status.outValid = false →
    (s.fcnt ≠ 2#2 →
      exec (.bin x d) s = .next { drive s with acc := (s.acc <<< 6) ||| d.setWidth 18, fcnt := s.fcnt + 1#2,
                                               streamEnded := false, result := .noWord }) ∧
    (s.fcnt = 2#2 →
      exec (.bin x d) s = .next { drive s with acc := 0#18, fcnt := 0#2, gap := 0, widx := s.widx + 1, wordGap := s.gap,
                                               streamEnded := false,
                                               result := .word ((s.acc <<< 6) ||| d.setWidth 18) s.gap }) ∧
    (s.fcnt = 0#2 → exec (.blank b) s = .next { drive s with gap := s.gap + 1, streamEnded := false, result := .noWord }) ∧
    (s.fcnt ≠ 0#2 →
      ∃ t, exec (.blank b) s = .next t ∧
        faultHeld .malformedInput { widx := some s.widx, blk := some s.blk, voice := some s.voice, sub := some 1 } t)

/-- R134: at the end of the stream `fuEnd` yields `EndOfStream(gap)` and changes no register, or raises MalformedInput
inside a word; before the end it is refused. That it is accepted outside a run too, noted by `drive`, is the model's
reading (log 14, DEDUCED). -/
def Obligations.FuEndReportsTheEndOfTheStream : Prop :=
  ∀ s : State, Ready s → s.status.outValid = false →
    (s.tape[s.ipos]? = none → s.fcnt = 0#2 →
      exec .fuEnd s = .next { drive s with streamEnded := true, result := .endOfStream s.gap }) ∧
    (s.tape[s.ipos]? = none → s.fcnt ≠ 0#2 →
      ∃ t, exec .fuEnd s = .next t ∧
        faultHeld .malformedInput { widx := some s.widx, blk := some s.blk, voice := some s.voice, sub := some 2 } t) ∧
    ((s.tape[s.ipos]?).isSome = true → exec .fuEnd s = .refused .framesRemain)

/-- R133, the closed form: blank frames and then three binary frames give `Word`; blank frames to the end give
`EndOfStream`; a group broken by a blank frame or by the end gives MalformedInput. With `gap` not 0 and a previous
result other than `EndOfStream` it is refused; that result is FU's, kept in `streamEnded` (log 13, DEDUCED). That it is
accepted outside a run too, noted by `drive`, is the model's reading (log 14, DEDUCED). -/
def Obligations.ReadWordClosedForm : Prop :=
  ∀ (s : State) (bl rest : List Frame) (f0 f1 f2 : Frame) (w : Word),
    Ready s → s.status.outValid = false → s.fcnt = 0#2 → (∀ f ∈ bl, isBinary f = false) →
    (s.gap = 0 ∨ s.streamEnded = true → s.tape.drop s.ipos = bl →
      exec .readWord s = .next { drive s with ipos := s.ipos + bl.length, gap := s.gap + bl.length,
                                              streamEnded := true, result := .endOfStream (s.gap + bl.length) }) ∧
    (s.gap = 0 ∨ s.streamEnded = true → s.tape.drop s.ipos = bl ++ f0 :: f1 :: f2 :: rest →
      decodeFrame f0 f1 f2 = some w →
      exec .readWord s = .next { drive s with ipos := s.ipos + bl.length + 3, acc := 0#18, gap := 0, widx := s.widx + 1,
                                              wordGap := s.gap + bl.length, streamEnded := false,
                                              result := .word w (s.gap + bl.length) }) ∧
    (s.gap = 0 ∨ s.streamEnded = true → isBinary f0 = true →
      (s.tape.drop s.ipos = bl ++ [f0] ∨ (s.tape.drop s.ipos = bl ++ [f0, f1] ∧ isBinary f1 = true)) →
      ∃ t, exec .readWord s = .next t ∧
        faultHeld .malformedInput { widx := some s.widx, blk := some s.blk, voice := some s.voice, sub := some 2 } t) ∧
    (s.gap = 0 ∨ s.streamEnded = true → isBinary f0 = true →
      ((s.tape.drop s.ipos = bl ++ f0 :: f1 :: rest ∧ isBinary f1 = false) ∨
        (s.tape.drop s.ipos = bl ++ f0 :: f1 :: f2 :: rest ∧ isBinary f1 = true ∧ isBinary f2 = false)) →
      ∃ t, exec .readWord s = .next t ∧
        faultHeld .malformedInput { widx := some s.widx, blk := some s.blk, voice := some s.voice, sub := some 1 } t) ∧
    (s.gap ≠ 0 → s.streamEnded = false → exec .readWord s = .refused .gapPending)

/-- R136: `peekGap` changes no register; it says whether a binary frame follows and how many blank frames stand before
it or before the end. That it is accepted outside a run too, noted by `drive`, is the model's reading (log 14,
DEDUCED). -/
def Obligations.PeekGapCountsAndChangesNothing : Prop :=
  ∀ (s : State) (bl rest : List Frame) (f : Frame), Ready s → s.fcnt = 0#2 → (∀ b ∈ bl, isBinary b = false) →
    (s.tape.drop s.ipos = bl → exec .peekGap s = .next { drive s with result := .peek false bl.length }) ∧
    (s.tape.drop s.ipos = bl ++ f :: rest → isBinary f = true →
      exec .peekGap s = .next { drive s with result := .peek true bl.length })

/-- R136, its consequence from R133: the read after a peek yields what the peek foretold, or MalformedInput where the
peek found a binary frame. It is stated for `gap` = 0: after an `EndOfStream(n)` with `n` not 0 a peek yields `(false, 0)`
and the read `EndOfStream(n)` again, where the model follows R133 and not the corner case of R136 (log 32, DEDUCED). -/
def Obligations.PeekForetellsTheNextRead : Prop :=
  ∀ (s t : State) (has : Bool) (g : Nat), Ready s → s.fcnt = 0#2 → s.gap = 0 →
    exec .peekGap s = .next t → t.result = .peek has g →
    ∃ u, exec .readWord t = .next u ∧
      (has = false → u.result = .endOfStream g ∧ u.fault = 0#4) ∧
      (has = true → (∃ w, u.result = .word w g ∧ u.fault = 0#4) ∨ u.fault = FaultKind.malformedInput.code)

/-- R131, R221: `encodeFrame` yields the three 6-bit groups, high first, each under bit 7; `decodeFrame` joins the
data bits of three binary frames and yields none if one is blank. Neither changes a register. That it is accepted
outside a run too, noted by `drive`, is the model's reading (log 14, DEDUCED). -/
def Obligations.FrameCodecOperations : Prop :=
  ∀ (s : State) (w : Word) (f0 f1 f2 : Frame), Ready s →
    exec (.encodeFrame w) s = .next { drive s with
      result := .frames (0x80#8 ||| (w.extractLsb' 12 6).setWidth 8) (0x80#8 ||| (w.extractLsb' 6 6).setWidth 8)
        (0x80#8 ||| (w.extractLsb' 0 6).setWidth 8) } ∧
    (f0.getLsbD 7 = true ∧ f1.getLsbD 7 = true ∧ f2.getLsbD 7 = true →
      exec (.decodeFrame f0 f1 f2) s = .next { drive s with
        result := .maybeWord (some (f0.extractLsb' 0 6 ++ f1.extractLsb' 0 6 ++ f2.extractLsb' 0 6)) }) ∧
    (f0.getLsbD 7 = false ∨ f1.getLsbD 7 = false ∨ f2.getLsbD 7 = false →
      exec (.decodeFrame f0 f1 f2) s = .next { drive s with result := .maybeWord none })

/-- R137: a word packed and unpacked is the word; a gap and a word written to an empty `OUT` and taken as `IN` are
read back as that word with that gap; bit 6 is not reproduced. That the operations are accepted outside a run too is
the model's reading (log 14, DEDUCED). -/
def Obligations.WrittenWordsReadBack : Prop :=
  (∀ w : Word, decodeFrame (encodeFrame w).1 (encodeFrame w).2.1 (encodeFrame w).2.2 = some w) ∧
  (∀ (s t u : State) (g : Nat) (w : Word), Ready s → s.mode = .tweak → s.out = [] →
    exec (.writeGap g) s = .next t → exec (.writeWord w) t = .next u →
    ∃ r, exec .readWord { State.reset with tape := u.out } = .next r ∧ r.result = .word w g) ∧
  (decodeFrame 0xC0#8 0xC0#8 0xC1#8).map encodeFrame = some (0x80#8, 0x80#8, 0x81#8)

/-! ### The checksum -/

/-- R152: `add` commutes, 0 is its identity and its result is masked to 18 bits. -/
def Obligations.AddCommutesWithIdentityZero : Prop :=
  ∀ a b : Word, csAdd a b = csAdd b a ∧ csAdd a 0#18 = a ∧ (csAdd a b).toNat ≤ 262143

/-- R153: the closed form of `add` modulo 2^18 - 1 with its two zeros, its associativity, and the fold over a list of words,
which does not depend on their order. -/
def Obligations.AddClosedFormModuloTwoTo18MinusOne : Prop :=
  (∀ a b : Word, (csAdd a b).toNat =
    if a.toNat = 0 ∧ b.toNat = 0 then 0 else (a.toNat + b.toNat - 1) % 262143 + 1) ∧
  (∀ a b c : Word, csAdd (csAdd a b) c = csAdd a (csAdd b c)) ∧
  (∀ ws : List Word, (∀ w ∈ ws, w = 0#18) → blockChecksum ws = 0#18) ∧
  (∀ ws : List Word, (∃ w ∈ ws, w ≠ 0#18) →
    (blockChecksum ws).toNat = ((ws.map BitVec.toNat).sum - 1) % 262143 + 1) ∧
  (∀ ws vs : List Word, ws.Perm vs → blockChecksum ws = blockChecksum vs)

/-- R156: inverting one bit of one content word changes the checksum of a block, so that `verify` rejects it. That the
operations are accepted outside a run too is the model's reading (log 14, DEDUCED). -/
def Obligations.SingleBitFlipIsDetected : Prop :=
  ∀ (s : State) (ws vs : List Word) (w : Word) (i : Nat), Ready s → s.status.outValid = false → i < 18 →
    ∃ t, exec (.verify (blockChecksum (ws ++ w :: vs))
        (blockChecksum (ws ++ (w ^^^ (1#18 <<< i)) :: vs))) s = .next t ∧
      t.fault = FaultKind.checksumError.code

/-- R151: `add` yields the low 18 bits of the sum plus its carry and changes no register. That it is accepted outside
a run too, noted by `drive`, is the model's reading (log 14, DEDUCED). -/
def Obligations.AddOperation : Prop :=
  ∀ (s : State) (a b : Word), Ready s →
    exec (.add a b) s = .next { drive s with
      result := .plainWord (BitVec.ofNat 18 ((a.toNat + b.toNat) % 262144 + (a.toNat + b.toNat) / 262144)) }

/-- R154, R273: `verify` of equal values changes no register; of different values it raises ChecksumError, and `FINFO`
carries both values exactly and, as for every kind, a word index (R280); which index is a free value (log 15) and not
stated here. That it is accepted outside a run too, noted by `drive`, is the model's reading (log 14, DEDUCED). -/
def Obligations.VerifyAcceptsExactlyEqualValues : Prop :=
  ∀ (s : State) (e c : Word), Ready s → s.status.outValid = false →
    (e = c → exec (.verify e c) s = .next { drive s with result := .none }) ∧
    (e ≠ c → ∃ t, exec (.verify e c) s = .next t ∧ t.fault = 2#4 ∧ t.seq = .faulted ∧
      t.status = { running := false, done := false, outValid := false } ∧
      t.finfo.widx.isSome = true ∧
      t.finfo = { widx := t.finfo.widx, blk := some s.blk, voice := some s.voice, expected := some e,
                  computed := some c })

/-! ### The note and tempo codec -/

/-- R98, R161: `classify` yields `SEP` for 0600000, `TEMPO` for the words whose bits 17:15 are all set, `NOTE` for
every other word, and changes no register. That it is accepted outside a run too, noted by `drive`, is the model's
reading (log 14, DEDUCED). -/
def Obligations.ClassifyOperation : Prop :=
  ∀ (s : State) (w : Word), Ready s →
    (w.toNat = 0o600000 → exec (.classify w) s = .next { drive s with result := .wordClass .sep }) ∧
    (0o700000 ≤ w.toNat → exec (.classify w) s = .next { drive s with result := .wordClass .tempo }) ∧
    (w.toNat ≠ 0o600000 → w.toNat < 0o700000 → exec (.classify w) s = .next { drive s with result := .wordClass .note })

/-- R163, R164, R165: `decode` yields the fields bit for bit with the displayed duration and the pitch, for a word of
any class (log 23), and changes no register. The positions are those of `noteLayout` (R99, R162; log 19). The
truncated quotient is `divRound` (D14; log 19). That it is accepted outside a run too, noted by `drive`, is the
model's reading (log 14, DEDUCED). -/
def Obligations.DecodeOperation : Prop :=
  ∀ (s : State) (w : Word), Ready s →
    ∃ n d p, exec (.decode w) s = .next { drive s with result := .note n d p } ∧
      n = { duration := w.extractLsb' 0 7, pitch := w.extractLsb' 7 6, art := w.extractLsb' 12 4,
            triplet := w.extractLsb' 15 1, hi := w.extractLsb' 16 2 } ∧
      (n.duration = 0#7 → d = none) ∧
      (n.duration ≠ 0#7 → n.triplet = 0#1 → d = some (192 / (n.duration.toNat * 3))) ∧
      (n.duration ≠ 0#7 → n.triplet = 1#1 → d = some (192 / (n.duration.toNat * 2))) ∧
      (n.pitch.toNat < 2 → p = .rest n.pitch) ∧
      (2 ≤ n.pitch.toNat →
        p = .pitched (n.pitch.toNat - 2) ((n.pitch.toNat - 2) / 12 + 1) ((n.pitch.toNat - 2) % 12))

/-- R165: `pitchInfo` yields a rest for 0 and 1 and the pitch class and octave of every other pitch, and changes no
register. That it is accepted outside a run too, noted by `drive`, is the model's reading (log 14, DEDUCED). -/
def Obligations.PitchInfoOperation : Prop :=
  ∀ (s : State) (p : BitVec 6), Ready s →
    (p.toNat < 2 → exec (.pitchInfo p) s = .next { drive s with result := .pitchInfo (.rest p) }) ∧
    (2 ≤ p.toNat → exec (.pitchInfo p) s = .next { drive s with
      result := .pitchInfo (.pitched (p.toNat - 2) ((p.toNat - 2) / 12 + 1) ((p.toNat - 2) % 12)) })

/-- R166, R276, R280: `articulationName` names the codes 0, 1, 2, 4, 8 and raises InvalidArticulation for every other
code, with the code, a word index and a word in `FINFO`. Which index and which word, for an operation issued on its
own, are free values (log 15) and not stated here. That it is accepted outside a run too, noted by `drive`, is the
model's reading (log 14, DEDUCED). -/
def Obligations.ArticulationNameOperation : Prop :=
  ∀ (s : State) (c : BitVec 4), Ready s → s.status.outValid = false →
    (c = 0#4 → exec (.articulationName c) s = .next { drive s with result := .articulation .normal }) ∧
    (c = 1#4 → exec (.articulationName c) s = .next { drive s with result := .articulation .quarter }) ∧
    (c = 2#4 → exec (.articulationName c) s = .next { drive s with result := .articulation .half }) ∧
    (c = 4#4 → exec (.articulationName c) s = .next { drive s with result := .articulation .staccato }) ∧
    (c = 8#4 → exec (.articulationName c) s = .next { drive s with result := .articulation .legato }) ∧
    (c ≠ 0#4 → c ≠ 1#4 → c ≠ 2#4 → c ≠ 4#4 → c ≠ 8#4 →
      ∃ t, exec (.articulationName c) s = .next t ∧ t.fault = 5#4 ∧ t.seq = .faulted ∧
        t.status = { running := false, done := false, outValid := false } ∧
        t.finfo.widx.isSome = true ∧ t.finfo.word.isSome = true ∧
        t.finfo = { widx := t.finfo.widx, blk := some s.blk, voice := some s.voice, code := some c,
                    word := t.finfo.word })

/-- R167, R168: `decodeTempo` divides 11436 by the low 15 bits and yields none for a zero divisor; `encodeTempo` packs
the low 15 bits of its operand under the tempo tag. Neither changes a register. The truncated quotient is `divRound`
(D14; log 19). That it is accepted outside a run too, noted by `drive`, is the model's reading (log 14, DEDUCED). -/
def Obligations.TempoOperations : Prop :=
  ∀ (s : State) (w : Word) (n : Nat), Ready s →
    (w.toNat % 32768 = 0 → exec (.decodeTempo w) s = .next { drive s with result := .bpm none }) ∧
    (w.toNat % 32768 ≠ 0 →
      exec (.decodeTempo w) s = .next { drive s with result := .bpm (some (11436 / (w.toNat % 32768))) }) ∧
    exec (.encodeTempo n) s = .next { drive s with result := .plainWord (BitVec.ofNat 18 (0o700000 + n % 32768)) }

/-- R169: `encodeNote` yields the word that carries the fields where bits 12 and 15 agree and the word is a note word,
and none otherwise. It changes no register. The positions are those of `noteLayout` (R99, R162; log 19). That it is
accepted outside a run too, noted by `drive`, is the model's reading (log 14, DEDUCED). -/
def Obligations.EncodeNoteOperation : Prop :=
  ∀ (s : State) (p : BitVec 6) (d : BitVec 7) (a : BitVec 4) (t : BitVec 1) (h : BitVec 2), Ready s →
    (a.getLsbD 0 = p.getLsbD 5 → a.getLsbD 3 = t.getLsbD 0 →
      classify (h ++ a ++ p.extractLsb' 0 5 ++ d) = .note →
      exec (.encodeNote p d a t h) s = .next { drive s with result := .maybeWord (some (h ++ a ++ p.extractLsb' 0 5 ++ d)) }) ∧
    (a.getLsbD 0 ≠ p.getLsbD 5 ∨ a.getLsbD 3 ≠ t.getLsbD 0 ∨
        classify (h ++ a ++ p.extractLsb' 0 5 ++ d) ≠ .note →
      exec (.encodeNote p d a t h) s = .next { drive s with result := .maybeWord none })

/-- R171: the round trips of the note and tempo codec, with the positions of `noteLayout` (R99, R162; log 19). -/
def Obligations.CodecRoundTrips : Prop :=
  (∀ w : Word, classify w = .note → encodeNote (noteFields w) = some w) ∧
  (∀ (n : Note) (w : Word), encodeNote n = some w → noteFields w = n) ∧
  (∀ w : Word, classify w = .tempo → encodeTempo ((w &&& 0x7FFF#18).toNat) = w) ∧
  (∀ t : Nat, (encodeTempo t).toNat % 32768 = t % 32768)

/-- R170: what the overlapping fields force on a note word with a legal articulation code: legato exactly when the triplet flag
is set, quarter whenever the pitch is 32 or more. It rests on the positions of `noteLayout` (R99, R162; log 19). -/
def Obligations.OverlappingFieldsForceArticulation : Prop :=
  ∀ (w : Word) (a : Articulation), articulation (noteFields w).art = some a →
    (a = .legato ↔ (noteFields w).triplet = 1#1) ∧ (32 ≤ (noteFields w).pitch.toNat → a = .quarter)

/-! ### The frame packer -/

/-- R222, R223, R225: in `TWEAK` mode `writeWord` appends the three frames of the word and `writeGap` its number of
zero frames, nothing else changes; in `DECODE` mode both are refused. That it is accepted outside a run too, noted by
`drive`, is the model's reading (log 14, DEDUCED). -/
def Obligations.PackerAppendsInTweakModeOnly : Prop :=
  ∀ (s : State) (w : Word) (n : Nat), Ready s →
    (s.mode = .tweak →
      exec (.writeWord w) s = .next { drive s with
        out := s.out ++ [0x80#8 ||| (w.extractLsb' 12 6).setWidth 8, 0x80#8 ||| (w.extractLsb' 6 6).setWidth 8,
          0x80#8 ||| (w.extractLsb' 0 6).setWidth 8]
        opos := s.opos + 3, result := .none } ∧
      exec (.writeGap n) s = .next { drive s with
        out := s.out ++ List.replicate n 0#8, opos := s.opos + n, result := .none }) ∧
    (s.mode = .decode →
      exec (.writeWord w) s = .refused .decodeMode ∧ exec (.writeGap n) s = .refused .decodeMode)

/-! ### Block operations -/

/-- R192, R193, R197, R198, R200: `parseNotesBlock` on a Notes block that raises nothing, with any gaps inside it and any ignored
bits, reads exactly its words, stores and sums them as read, reports them, in `TWEAK` mode writes the rewritten block, and
leaves the sequencer before the Notes/Bars gap. `parseTempoSubstitution` does the same in `TWEAK` mode. -/
def Obligations.NotesBlockIsParsed : Prop :=
  ∀ (s : State) (b : InkedBlock) (rest : List Frame), Ready s → s.status.running = true →
    s.seq = .expectLeaderGap ∨ s.seq = .expectNotesBlock → s.fcnt = 0#2 → s.gap = 0 →
    s.tape.drop s.ipos = b.frames ++ rest → b.notesOk →
    let ws := b.words
    let outWords := ws.map (substWord (override s))
    let leader := if s.seq = .expectLeaderGap then [Event.gap .leader b.gap] else []
    let written :=
      if s.mode = .tweak then
        (if s.seq = .expectLeaderGap then gapFrames b.gap else []) ++ blockFrames outWords
      else []
    let t := { s with
      ipos := s.ipos + b.frames.length, acc := 0#18, widx := s.widx + ws.length + 2,
      wordGap := b.check.blanks.length, streamEnded := false, sumIn := blockChecksum ws, sumOut := blockChecksum outWords, blk := .notes,
      count := b.count.w, idx := ws.length, notesCount := b.count.w, notes := cellsFrom 0 ws, notesValid := true,
      out := s.out ++ written, opos := s.opos + written.length, seq := .expectGap1,
      ev := s.ev ++ leader ++ notesEvents s.voice (override s) b, result := .none }
    exec .parseNotesBlock s = .next t ∧ (s.mode = .tweak → exec .parseTempoSubstitution s = .next t)

/-- R194, R195, R196, R202: `parseBarsBlock` on a Bars block that raises nothing reads exactly its words, reports each bar or
separator, in `TWEAK` mode copies gap and block, frees the Notes buffer, and yields the peek at what follows. -/
def Obligations.BarsBlockIsParsed : Prop :=
  ∀ (s : State) (ns : List Word) (b : InkedBlock) (bl rest : List Frame), Ready s → s.status.running = true →
    s.seq = .expectGap1 → s.notesValid = true → s.fcnt = 0#2 → s.gap = 0 →
    ns.length < 262144 → s.notesCount = BitVec.ofNat 18 ns.length → s.notes = cellsFrom 0 ns →
    s.tape.drop s.ipos = b.frames ++ (bl ++ rest) → b.barsOk ns.length → (∀ f ∈ bl, isBinary f = false) →
    rest = [] ∨ (∃ f r, rest = f :: r ∧ isBinary f = true) →
    let ks := b.words
    let written := if s.mode = .tweak then gapFrames b.gap ++ blockFrames ks else []
    exec .parseBarsBlock s = .next { s with
      ipos := s.ipos + b.frames.length, acc := 0#18, widx := s.widx + ks.length + 2,
      wordGap := b.check.blanks.length, streamEnded := false, sumIn := blockChecksum ks, blk := .bars, count := b.count.w, idx := ks.length,
      notesValid := false, out := s.out ++ written, opos := s.opos + written.length, seq := .expectGap2,
      ev := s.ev ++ barsEvents s.voice ns b, result := .peek (!rest.isEmpty) bl.length }

/-- R276, R282: the first content word of a Notes block with an illegal articulation code raises InvalidArticulation, whatever
comes after it. -/
def Obligations.IllegalArticulationIsRaised : Prop :=
  ∀ (s : State) (c x : InkedWord) (xs : List InkedWord) (rest : List Frame), Ready s → s.status.outValid = false →
    s.status.running = true → s.seq = .expectLeaderGap ∨ s.seq = .expectNotesBlock → s.fcnt = 0#2 → s.gap = 0 →
    s.tape.drop s.ipos = (c :: xs ++ [x]).flatMap InkedWord.frames ++ rest → xs.length < c.w.toNat →
    (∀ y ∈ xs, legalContent y.w) → ¬ legalContent x.w →
    ∃ t, exec .parseNotesBlock s = .next t ∧
      faultHeld .invalidArticulation
        { widx := some (s.widx + 1 + xs.length), blk := some .notes, voice := some s.voice,
          code := some (noteFields x.w).art, word := some x.w } t

/-- R273: a block whose checksum word is not the sum of its content raises ChecksumError with both values exactly, a Notes block
and a Bars block alike. -/
def Obligations.WrongChecksumIsRaised : Prop :=
  ∀ (s : State) (ns : List Word) (b : InkedBlock) (rest : List Frame), Ready s → s.status.outValid = false →
    s.status.running = true → s.fcnt = 0#2 → s.gap = 0 → s.tape.drop s.ipos = b.frames ++ rest → b.counted →
    b.check.w ≠ blockChecksum b.words →
    (s.seq = .expectLeaderGap ∨ s.seq = .expectNotesBlock → (∀ x ∈ b.content, legalContent x.w) →
      ∃ t, exec .parseNotesBlock s = .next t ∧
        faultHeld .checksumError
          { widx := some (s.widx + 1 + b.content.length), blk := some .notes, voice := some s.voice,
            expected := some b.check.w, computed := some (blockChecksum b.words) } t) ∧
    (s.seq = .expectGap1 → s.notesValid = true → ns.length < 262144 → s.notesCount = BitVec.ofNat 18 ns.length →
      s.notes = cellsFrom 0 ns → 0 < b.gap → (∀ x ∈ b.content, x.w = Config.sep ∨ x.w.toNat < ns.length) →
      ∃ t, exec .parseBarsBlock s = .next t ∧
        faultHeld .checksumError
          { widx := some (s.widx + 1 + b.content.length), blk := some .bars, voice := some s.voice,
            expected := some b.check.w, computed := some (blockChecksum b.words) } t)

/-- R274, first cause: a Bars block whose count word follows the Notes block without a gap raises StructuralError. -/
def Obligations.MissingNotesBarsGapIsRaised : Prop :=
  ∀ (s : State) (c : InkedWord) (rest : List Frame), Ready s → s.status.outValid = false → s.status.running = true →
    s.seq = .expectGap1 → s.notesValid = true → s.fcnt = 0#2 → s.gap = 0 → c.blanks = [] →
    s.tape.drop s.ipos = c.frames ++ rest →
    ∃ t, exec .parseBarsBlock s = .next t ∧
      faultHeld .structuralError
        { widx := some s.widx, blk := some .bars, voice := some s.voice, sub := some 1, gap := some 0 } t

/-- R195, R275: the first Bars content word that is not the separator and not below `notes_count` raises IndexOutOfRange,
whatever comes after it. -/
def Obligations.IndexOutOfRangeIsRaised : Prop :=
  ∀ (s : State) (ns : List Word) (c x : InkedWord) (xs : List InkedWord) (rest : List Frame), Ready s →
    s.status.outValid = false → s.status.running = true → s.seq = .expectGap1 → s.notesValid = true →
    s.fcnt = 0#2 → s.gap = 0 → ns.length < 262144 → s.notesCount = BitVec.ofNat 18 ns.length →
    s.notes = cellsFrom 0 ns → 0 < c.blanks.length →
    s.tape.drop s.ipos = (c :: xs ++ [x]).flatMap InkedWord.frames ++ rest → xs.length < c.w.toNat →
    (∀ y ∈ xs, y.w = Config.sep ∨ y.w.toNat < ns.length) → x.w ≠ Config.sep → ns.length ≤ x.w.toNat →
    ∃ t, exec .parseBarsBlock s = .next t ∧
      faultHeld .indexOutOfRange
        { widx := some (s.widx + 1 + xs.length), blk := some .bars, voice := some s.voice, index := some x.w,
          notesCount := some s.notesCount } t

/-- R191, R277: the stream ending where a block's count word, or a further word of the block, is required raises UnexpectedEOF
with the blank frames consumed on the way; for a Notes block and for a Bars block. -/
def Obligations.EndInsideABlockIsRaised : Prop :=
  ∀ (s : State) (ns : List Word) (c : InkedWord) (xs : List InkedWord) (bs : List (BitVec 7)), Ready s →
    s.status.outValid = false → s.status.running = true → s.fcnt = 0#2 → s.gap = 0 →
    (s.seq = .expectLeaderGap ∨ s.seq = .expectNotesBlock → s.tape.drop s.ipos = blankFrames bs →
      ∃ t, exec .parseNotesBlock s = .next t ∧
        faultHeld .unexpectedEOF
          { widx := some s.widx, blk := some .notes, voice := some s.voice, gap := some bs.length } t) ∧
    (s.seq = .expectLeaderGap ∨ s.seq = .expectNotesBlock →
      s.tape.drop s.ipos = (c :: xs).flatMap InkedWord.frames ++ blankFrames bs → xs.length ≤ c.w.toNat →
      (∀ y ∈ xs, legalContent y.w) →
      ∃ t, exec .parseNotesBlock s = .next t ∧
        faultHeld .unexpectedEOF
          { widx := some (s.widx + 1 + xs.length), blk := some .notes, voice := some s.voice,
            gap := some bs.length } t) ∧
    (s.seq = .expectGap1 → s.notesValid = true → s.tape.drop s.ipos = blankFrames bs →
      ∃ t, exec .parseBarsBlock s = .next t ∧
        faultHeld .unexpectedEOF
          { widx := some s.widx, blk := some .bars, voice := some s.voice, gap := some bs.length } t) ∧
    (s.seq = .expectGap1 → s.notesValid = true → ns.length < 262144 → s.notesCount = BitVec.ofNat 18 ns.length →
      s.notes = cellsFrom 0 ns → 0 < c.blanks.length →
      s.tape.drop s.ipos = (c :: xs).flatMap InkedWord.frames ++ blankFrames bs → xs.length ≤ c.w.toNat →
      (∀ y ∈ xs, y.w = Config.sep ∨ y.w.toNat < ns.length) →
      ∃ t, exec .parseBarsBlock s = .next t ∧
        faultHeld .unexpectedEOF
          { widx := some (s.widx + 1 + xs.length), blk := some .bars, voice := some s.voice,
            gap := some bs.length } t)

/-- R192, R194, R272, R282: a group broken off inside a block raises MalformedInput with the index its word would have had, the
block and the voice, `sub` 1 where a blank frame breaks it and 2 where the stream ends: at the count word, and at any content
word or the checksum word after words that raise nothing; in a Notes block and in a Bars block. With `gap` not 0 before the
operation too, by the model's choice (log 33). -/
def Obligations.MalformedGroupInsideABlockIsRaised : Prop :=
  ∀ (s : State) (ns : List Word) (c : InkedWord) (xs : List InkedWord) (bl : List (BitVec 7)) (d0 : BitVec 7)
    (d1 : Option (BitVec 7)) (next : List Frame) (sub : Nat), Ready s → s.status.outValid = false →
    s.status.running = true → s.fcnt = 0#2 → breaksGroup next sub = true →
    (s.seq = .expectLeaderGap ∨ s.seq = .expectNotesBlock → s.tape.drop s.ipos = brokenGroup bl d0 d1 next →
      ∃ t, exec .parseNotesBlock s = .next t ∧
        faultHeld .malformedInput
          { widx := some s.widx, blk := some .notes, voice := some s.voice, sub := some sub } t) ∧
    (s.seq = .expectLeaderGap ∨ s.seq = .expectNotesBlock →
      s.tape.drop s.ipos = (c :: xs).flatMap InkedWord.frames ++ brokenGroup bl d0 d1 next →
      xs.length ≤ c.w.toNat → (∀ y ∈ xs, legalContent y.w) →
      ∃ t, exec .parseNotesBlock s = .next t ∧
        faultHeld .malformedInput
          { widx := some (s.widx + 1 + xs.length), blk := some .notes, voice := some s.voice, sub := some sub } t) ∧
    (s.seq = .expectGap1 → s.notesValid = true → s.tape.drop s.ipos = brokenGroup bl d0 d1 next →
      ∃ t, exec .parseBarsBlock s = .next t ∧
        faultHeld .malformedInput
          { widx := some s.widx, blk := some .bars, voice := some s.voice, sub := some sub } t) ∧
    (s.seq = .expectGap1 → s.notesValid = true → ns.length < 262144 → s.notesCount = BitVec.ofNat 18 ns.length →
      s.notes = cellsFrom 0 ns → 0 < c.blanks.length →
      s.tape.drop s.ipos = (c :: xs).flatMap InkedWord.frames ++ brokenGroup bl d0 d1 next →
      xs.length ≤ c.w.toNat → (∀ y ∈ xs, y.w = Config.sep ∨ y.w.toNat < ns.length) →
      ∃ t, exec .parseBarsBlock s = .next t ∧
        faultHeld .malformedInput
          { widx := some (s.widx + 1 + xs.length), blk := some .bars, voice := some s.voice, sub := some sub } t)

/-- R196: `barSlice` of an index below `notes_count` yields the words up to the next separator or the end of the array
and changes no register; of another index it is refused. That it is accepted outside a run too, noted by `drive`, is
the model's reading (log 14, DEDUCED). -/
def Obligations.BarSliceOperation : Prop :=
  ∀ (s : State) (ns : List Word) (k : Word), Ready s → ns.length < 262144 →
    s.notesCount = BitVec.ofNat 18 ns.length → s.notes = cellsFrom 0 ns →
    (k.toNat < ns.length →
      exec (.barSlice k) s = .next { drive s with
        result := .words ((ns.drop k.toNat).takeWhile fun w => w != 0x30000#18) }) ∧
    (ns.length ≤ k.toNat → exec (.barSlice k) s = .refused .indexNotInNotes)

/-! ### Words of the tape as instructions -/

/-- R193, R197: a separator, a tempo word or a legal note word executed inside a Notes block is stored and summed as read,
reported, and in `TWEAK` mode written as rewritten; an illegal note word raises InvalidArticulation. -/
def Obligations.NotesContentItems : Prop :=
  ∀ (s : State) (i : Instr) (w : Word), Ready s → s.status.outValid = false → s.status.running = true →
    s.seq = .expectNotesBlock → s.blk = .notes → s.idx < s.count.toNat →
    (i = .sep ∧ w = Config.sep) ∨ (∃ t, i = .tempo t ∧ w = tempoWord t) ∨
      (∃ h tr am q pl d, i = .note h tr am q pl d ∧ i.wellFormed = true ∧ w = noteWord h tr am q pl d) →
    (legalContent w →
      let wOut := substWord (override s) w
      let written := if s.mode = .tweak then wordFrames wOut else []
      exec i s = .next { s with
        notes := s.notes.write s.idx w, sumIn := csAdd s.sumIn w, sumOut := csAdd s.sumOut wOut, idx := s.idx + 1,
        ev := s.ev ++ [contentEvent s.voice (override s) s.idx w], out := s.out ++ written,
        opos := s.opos + written.length, result := .none }) ∧
    (¬ legalContent w →
      ∃ t, exec i s = .next t ∧
        faultHeld .invalidArticulation
          { widx := some (s.widx - 1), blk := some .notes, voice := some s.voice, code := some (noteFields w).art,
            word := some w } t)

/-- R195: a separator or an index word executed inside a Bars block is summed, reported with its bar, and in `TWEAK` mode copied;
an index that is not below `notes_count` raises IndexOutOfRange. -/
def Obligations.BarsContentItems : Prop :=
  ∀ (s : State) (ns : List Word) (i : Instr) (k : Word), Ready s → s.status.outValid = false →
    s.status.running = true → s.seq = .expectBarsBlock → s.idx < s.count.toNat → ns.length < 262144 →
    s.notesCount = BitVec.ofNat 18 ns.length → s.notes = cellsFrom 0 ns →
    (i = .sep ∧ k = Config.sep) ∨ (i = .index k ∧ i.wellFormed = true) →
    (k = Config.sep ∨ k.toNat < ns.length →
      let written := if s.mode = .tweak then wordFrames k else []
      exec i s = .next { s with
        sumIn := csAdd s.sumIn k, idx := s.idx + 1, ev := s.ev ++ [barEvent s.voice ns s.idx k],
        out := s.out ++ written, opos := s.opos + written.length, result := .none }) ∧
    (k ≠ Config.sep → ns.length ≤ k.toNat →
      ∃ t, exec i s = .next t ∧
        faultHeld .indexOutOfRange
          { widx := some (s.widx - 1), blk := some s.blk, voice := some s.voice, index := some k,
            notesCount := some s.notesCount } t)

/-- R192, R194: a count word executed where a Notes block is due clears the sums and the buffer, declares the block and reports
it, the leader gap too before voice 1; where a Bars block is due it does so after a gap, and raises StructuralError without
one. The model's choices: a tape word is an instruction of its own, whose gap is `wordGap` and whose index is `widx` - 1
(logs 5 and 21); the first clause covers every state with `SEQ` = `ExpectNotesBlock`, also one inside a Notes block, where no
block is due and a COUNT executed begins the block anew (log 31). -/
def Obligations.CountItemBeginsABlock : Prop :=
  ∀ (s : State) (n : Word), Ready s → s.status.outValid = false → s.status.running = true →
    (s.seq = .expectLeaderGap ∨ s.seq = .expectNotesBlock →
      let leader := if s.seq = .expectLeaderGap then [Event.gap .leader s.wordGap] else []
      let written :=
        if s.mode = .tweak then (if s.seq = .expectLeaderGap then gapFrames s.wordGap else []) ++ wordFrames n else []
      exec (.count n) s = .next { s with
        blk := .notes, notesValid := false, sumIn := 0#18, sumOut := 0#18, idx := 0, notes := [], count := n,
        notesCount := n, seq := .expectNotesBlock, ev := s.ev ++ leader ++ [.count s.voice .notes n],
        out := s.out ++ written, opos := s.opos + written.length, result := .none }) ∧
    (s.seq = .expectGap1 → s.notesValid = true → s.wordGap ≠ 0 →
      let written := if s.mode = .tweak then gapFrames s.wordGap ++ wordFrames n else []
      exec (.count n) s = .next { s with
        blk := .bars, sumIn := 0#18, idx := 0, count := n, seq := .expectBarsBlock,
        ev := s.ev ++ [.gap .notesBars s.wordGap, .count s.voice .bars n],
        out := s.out ++ written, opos := s.opos + written.length, result := .none }) ∧
    (s.seq = .expectGap1 → s.notesValid = true → s.wordGap = 0 →
      ∃ t, exec (.count n) s = .next t ∧
        faultHeld .structuralError
          { widx := some (s.widx - 1), blk := some .bars, voice := some s.voice, sub := some 1, gap := some 0 } t)

/-- R154, R192, R194: a checksum word executed after the last content word ends the block where it equals the sum, and raises
ChecksumError where it does not. That a checksum word is an instruction of its own, and its index `widx` - 1, is the model's
choice (log 21). -/
def Obligations.ChecksumItemEndsABlock : Prop :=
  ∀ (s : State) (c : Word), Ready s → s.status.outValid = false → s.status.running = true →
    s.count.toNat ≤ s.idx →
    (s.seq = .expectNotesBlock → s.blk = .notes → c = s.sumIn →
      let written := if s.mode = .tweak then wordFrames s.sumOut else []
      exec (.checksum c) s = .next { s with
        notesValid := true, seq := .expectGap1,
        ev := s.ev ++ [.checksum s.voice .notes c c (some s.sumOut)],
        out := s.out ++ written, opos := s.opos + written.length, result := .none }) ∧
    (s.seq = .expectBarsBlock → c = s.sumIn →
      let written := if s.mode = .tweak then wordFrames c else []
      ∃ has g, exec .peekGap { s with fcnt := 0#2 } = .next { s with fcnt := 0#2, result := .peek has g } ∧
      exec (.checksum c) s = .next { s with
        notesValid := false, seq := .expectGap2, ev := s.ev ++ [.checksum s.voice .bars c c none],
        out := s.out ++ written, opos := s.opos + written.length, result := .peek has g }) ∧
    ((s.seq = .expectNotesBlock ∧ s.blk = .notes) ∨ s.seq = .expectBarsBlock → c ≠ s.sumIn →
      ∃ t, exec (.checksum c) s = .next t ∧
        faultHeld .checksumError
          { widx := some (s.widx - 1), blk := some s.blk, voice := some s.voice, expected := some c,
            computed := some s.sumIn } t)

/-! ### Runs -/

/-- R232 to R236, R238, R240, R241, R264: `start` on a tape of one to four voices that raise nothing, with any gaps and any
ignored bits, completes; every register then has the value given here, `EV` is the decoded tape, and in `TWEAK` mode `OUT` is
the rewritten tape. `runDecoder` and `runTweak` are `start` in their mode. That the register `gap` holds the length of the
final gap at the end follows R133 and R134 against vector P1 (log 27); `wordGap` is the model's own field (log 5). -/
def Obligations.WellFormedTapeRunsToTheEnd : Prop :=
  ∀ (s : State) (m : Mode) (init : List InkedVoice) (v : InkedVoice) (final : List (BitVec 7)),
    Ready s → atReset s → s.mode = m → init.length ≤ 3 → (∀ x ∈ init ++ [v], x.ok) →
    s.tape = tapeFrames (init ++ [v]) final →
    let vs := init ++ [v]
    let o := override s
    let words := (vs.map InkedVoice.wordCount).sum
    let written := if m = .tweak then tweakOutput o s.gapLen final.length vs else []
    let t := { s with
      ipos := s.tape.length, gap := final.length, widx := words, wordGap := v.bars.check.blanks.length, streamEnded := true,
      sumIn := blockChecksum v.bars.words, sumOut := blockChecksum (v.notes.words.map (substWord o)), blk := .bars,
      count := v.bars.count.w, idx := v.bars.content.length, notesCount := v.notes.count.w,
      notes := cellsFrom 0 v.notes.words, out := written, opos := written.length, voice := BitVec.ofNat 3 vs.length,
      seq := .endOfTape,
      ev := Event.gap .leader (leaderGap vs) :: voicesEvents o final.length 1 vs ++
        [.ended (BitVec.ofNat 3 vs.length) words s.tape.length written.length],
      status := { running := false, done := true, outValid := decide (m = .tweak) },
      result := .runDone (BitVec.ofNat 3 vs.length) }
    exec .start s = .next t ∧ (m = .decode → exec .runDecoder { s with mode := .tweak } = .next t ∧
      exec .runDecoder s = .next t) ∧
      (m = .tweak → exec .runTweak { s with mode := .decode } = .next t ∧ exec .runTweak s = .next t)

/-- R237, R278: a binary frame anywhere after the gap that follows voice 4's Bars block raises UnexpectedTrailingData. -/
def Obligations.TrailingDataIsRaised : Prop :=
  ∀ (s : State) (vs : List InkedVoice) (bl rest : List Frame) (f : Frame), Ready s → atReset s → vs.length = 4 →
    (∀ x ∈ vs, x.ok) → (∀ b ∈ bl, isBinary b = false) → isBinary f = true →
    s.tape = vs.flatMap InkedVoice.frames ++ bl ++ f :: rest →
    ∃ t, exec .start s = .next t ∧
      faultHeld .unexpectedTrailingData
        { widx := some (vs.map InkedVoice.wordCount).sum, blk := some .bars, voice := some 4#3,
          gap := some bl.length } t

/-- R232, R264, R290: a run always ends, with `RUNNING` = 0, and then exactly one of `DONE` = 1 and `FAULT` other than 0 holds, and `OUT_VALID` = 1 implies
`DONE` = 1 and `MODE` = `TWEAK`. -/
def Obligations.RunEndsInExactlyOneOutcome : Prop :=
  ∀ (s : State) (i : Instr), Ready s → atReset s → i = .start ∨ i = .runDecoder ∨ i = .runTweak →
    ∃ t, exec i s = .next t ∧
      ((t.status.done = true ∧ t.fault = 0#4) ∨ (t.status.done = false ∧ t.fault ≠ 0#4)) ∧
      (t.status.outValid = true → t.status.done = true ∧ t.mode = .tweak) ∧ t.status.running = false

/-- R243: a Tweak run without override that completes, then a Decoder run over its output, reports the same content as the
Decoder run over the input: the event streams are equal but for the inter-voice gap lengths, which are `GAP_LEN`, and the
frame count at the end. -/
def Obligations.TweakWithoutOverridePreservesContent : Prop :=
  ∀ s t : State, Ready s → atReset s → s.tempoEn = false → exec .runTweak s = .next t → t.status.done = true →
    ∃ d d', exec .runDecoder s = .next d ∧ d.status.done = true ∧
      exec .runDecoder { s with tape := t.out } = .next d' ∧ d'.status.done = true ∧
      d'.ev = d.ev.map (regapped s.gapLen t.out.length)

/-- R244, with the one respect in which its wording is wider than the rules it is derived from: a tempo word inside a bar's slice
is reported with the new parameter (R196, R204). A Tweak run with an override that completes gives an output that the Decoder
run accepts, in which every tempo word carries the supplied parameter and every other record but the Notes checksums is that
of the input. -/
def Obligations.TweakOverrideIsDecodedBack : Prop :=
  ∀ s t : State, Ready s → atReset s → s.tempoEn = true → exec .runTweak s = .next t → t.status.done = true →
    ∃ d d', exec .runDecoder s = .next d ∧ d.status.done = true ∧
      exec .runDecoder { s with tape := t.out } = .next d' ∧ d'.status.done = true ∧
      d'.ev.filter (fun e => !isNotesChecksum e) =
        (d.ev.filter fun e => !isNotesChecksum e).map (retempoed s.tempoOvr s.gapLen t.out.length) ∧
      (∀ v i w t15 bpm wOut, Event.tempo v i w t15 bpm wOut ∈ d'.ev → t15 = s.tempoOvr)

/-- R264: the run taken word by word, each word of the tape executed as an instruction of its own, ends as `start` ends. -/
def Obligations.SteppedRunEndsAsStart : Prop :=
  ∀ s : State, Ready s → atReset s → s.level = .word →
    ∃ n, ∀ k, n ≤ k → core.run k (setRunning s) = exec .start s

/-! ### Faults and refusals -/

/-- R280, R281, R289: whatever instruction raises a fault, `FAULT` holds one of the codes 1 to 7, `SEQ` is `Faulted`, the flags are
clear, `FINFO` holds a word index, a block and a voice, and the outcome is `Fault(FAULT, FINFO)`. -/
def Obligations.FaultEntryIsUniform : Prop :=
  ∀ (i : Instr) (s t : State), s.fault = 0#4 → s.status.outValid = false → exec i s = .next t → t.fault ≠ 0#4 →
    1 ≤ t.fault.toNat ∧ t.fault.toNat ≤ 7 ∧ t.seq = .faulted ∧
      t.status = { running := false, done := false, outValid := false } ∧ t.finfo.widx.isSome = true ∧
      t.finfo.blk.isSome = true ∧ t.finfo.voice.isSome = true ∧ t.result = .fault t.fault t.finfo

/-- R52, R260, U20: with a fault held, and after a completed run, every instruction but `coreReset` is refused. -/
def Obligations.OnlyResetLeavesATerminalState : Prop :=
  ∀ (i : Instr) (s : State), i ≠ .coreReset →
    (s.fault ≠ 0#4 → exec i s = .refused .faulted) ∧
    (s.fault = 0#4 → s.status.done = true → exec i s = .refused .runEnded)

/-- R264, R303: a run is refused unless every register but the configuration is at its reset value and no operation but the
configuration has been accepted since `coreReset`. So of the sequences of operations from a `coreReset` to a run, with none of
the two in between, exactly those of configuration operations are accepted to the end. That an operation in between is
itself accepted, and the run refused for it, is the model's reading of R303 beside R286 and R289 (log 14). -/
def Obligations.RunsStartFromReset : Prop :=
  ∀ (s : State) (i : Instr), i = .start ∨ i = .runDecoder ∨ i = .runTweak →
    (Ready s → ¬ atReset s → exec i s = .refused .notAtReset) ∧
    (∀ is : List Instr, (∀ j ∈ is, j ≠ .coreReset) → (∃ j ∈ is, configures j = false) →
      ∀ t, execAll (.coreReset :: is ++ [i]) s ≠ .next t) ∧
    (∀ is : List Instr, (∀ j ∈ is, configures j = true) → ∃ t, execAll (.coreReset :: is ++ [i]) s = .next t)

/-- R192, R194, R197, R311: with no fault held and no run completed, a block operation whose precondition is broken is refused,
by the name of the first one broken: `RUNNING` = 1, the sequencer state, a valid Notes buffer (`parseBarsBlock`), `fcnt` = 0.
`parseTempoSubstitution` has the preconditions of `parseNotesBlock` in `TWEAK` mode and is refused in `DECODE` mode. (The
precondition `FAULT` = 0 is that of every operation and a statement of its own, OnlyResetLeavesATerminalState.) -/
def Obligations.BlockOperationsKeepTheirPreconditions : Prop :=
  ∀ s : State, Ready s →
    (∀ i, i = .parseNotesBlock ∨ (i = .parseTempoSubstitution ∧ s.mode = .tweak) →
      (s.status.running = false → exec i s = .refused .notRunning) ∧
      (s.status.running = true → s.seq ≠ .expectLeaderGap → s.seq ≠ .expectNotesBlock →
        exec i s = .refused .wrongSequence) ∧
      (s.status.running = true → s.seq = .expectLeaderGap ∨ s.seq = .expectNotesBlock → s.fcnt ≠ 0#2 →
        exec i s = .refused .midWord)) ∧
    (s.mode = .decode → exec .parseTempoSubstitution s = .refused .notTweak) ∧
    (s.status.running = false → exec .parseBarsBlock s = .refused .notRunning) ∧
    (s.status.running = true → s.seq ≠ .expectGap1 → exec .parseBarsBlock s = .refused .wrongSequence) ∧
    (s.status.running = true → s.seq = .expectGap1 → s.notesValid = false →
      exec .parseBarsBlock s = .refused .notesNotValid) ∧
    (s.status.running = true → s.seq = .expectGap1 → s.notesValid = true → s.fcnt ≠ 0#2 →
      exec .parseBarsBlock s = .refused .midWord)

/-! ### The whole machine -/

/-- A step runs the decoded instruction: at the operation level the one whose bytes are at the port, which are taken; at the
frame level the frame at `ipos`, which is passed; at the word level in a run the next word due, read by FU, by its position.
Every encoding that decodes counts, well-formed or not. The levels are the model's own (log 6). -/
def Obligations.StepRunsTheDecodedInstruction : Prop :=
  (∀ (s : State) (i : Instr) (rest : List Byte), s.level = .operation → decode .port s.port = .ok (i, rest) →
    step s = exec i { s with port := rest }) ∧
  (∀ (s : State) (f : Frame) (i : Instr), s.level = .frame → s.tape[s.ipos]? = some f →
    decode .frame [f] = .ok (i, []) → step s = exec i { s with ipos := s.ipos + 1 }) ∧
  (∀ (s s' : State) (pos : WordPos) (r : BlockWord) (i : Instr) (rest : List Byte), s.level = .word →
    s.status.running = true → Ready s → s.fcnt = 0#2 → position s = some pos →
    (pos = .barsCount → s.notesValid = true) → readBlockWord (beginBlock pos s) = .done r s' →
    decode (.word pos) (wordFrames r.w ++ rest) = .ok (i, rest) → step s = exec i s')

/-- R132, R134: a step at the frame level is `fuStep`, and `fuEnd` at the end of the stream. -/
def Obligations.FrameStepIsFuStep : Prop :=
  ∀ s : State, s.level = .frame →
    (s.ipos < s.tape.length → Ready s → step s = exec .fuStep s) ∧
    (s.tape.length ≤ s.ipos → step s = exec .fuEnd s)

/-- Decode and encode agree: every well-formed instruction, with every operand at every value, decodes from its encoding and
leaves the bytes after it. A separator decodes as well as Bars content, count and checksum words as well in a Bars block. -/
def Obligations.DecodeOfEncodeIsTheInstruction : Prop :=
  (∀ (i : Instr) (rest : List Byte), i.wellFormed = true → decode i.source (encode i ++ rest) = .ok (i, rest)) ∧
  (∀ rest : List Byte, decode (.word .barsContent) (encode .sep ++ rest) = .ok (.sep, rest)) ∧
  (∀ (n : Word) (rest : List Byte), decode (.word .barsCount) (encode (.count n) ++ rest) = .ok (.count n, rest)) ∧
  (∀ (c : Word) (rest : List Byte),
    decode (.word .barsChecksum) (encode (.checksum c) ++ rest) = .ok (.checksum c, rest))

/-- Words of the spec's own examples decode to the items they stand for (R114, R131, R90). The last two clauses are operations
at the command port: the codes are the spec's (R110), the layout of the bytes, code in bits 4:0 and operand bytes low first,
is the model's choice (log 1). -/
def Obligations.SpelledWordsDecode : Prop :=
  decode (.word .notesContent) [0b10111000#8, 0b10000010#8, 0b10101111#8] = .ok (.tempo 0o257#15, []) ∧
  decode (.word .notesContent) [0b10110000#8, 0b10000000#8, 0b10000000#8] = .ok (.sep, []) ∧
  decode (.word .notesContent) [0b10000100#8, 0b10101010#8, 0b10001000#8] =
    .ok (.note 0#2 0#1 0b10#2 0#1 0b10101#5 8#7, []) ∧
  decode (.word .notesCount) [0b10000000#8, 0b10000000#8, 0b10000010#8] = .ok (.count 2#18, []) ∧
  decode .frame [0b11000001#8] = .ok (.bin 1#1 1#6, []) ∧ decode .frame [0b00000000#8] = .ok (.blank 0#7, []) ∧
  decode .port [0b00010111#8, 0o5#8, 0#8, 0#8] = .ok (.writeWord 5#18, []) ∧
  decode .port [0b00011100#8] = .error .unassignedCode

/-- The invariant is kept by every step, at every level, from every state that meets it. -/
def Obligations.EveryStepKeepsTheInvariant : Prop :=
  ∀ s t : State, Inv s → step s = .next t → Inv t

/-- From a state that meets the invariant no step reads an undefined cell of `NOTES`: `step` never answers the model's one
machine fault (R66, R68; log 18). (A step may be refused, and a fault of R271 is a next state.) -/
def Obligations.NoStepReadsAnUndefinedCell : Prop :=
  ∀ (s : State) (f : Fault), Inv s → step s ≠ .fault f

/-- R63, R225: with `MODE` = `DECODE` nothing is written to `OUT`, whatever instruction completes. (`coreReset` empties it,
`runTweak` changes the mode.) -/
def Obligations.DecodeModeWritesNothing : Prop :=
  ∀ (i : Instr) (s t : State), i ≠ .coreReset → i ≠ .runTweak → s.mode = .decode → exec i s = .next t →
    t.fault = 0#4 → t.out = s.out ∧ t.opos = s.opos

/-- R22, R60, R78: no instruction and no step writes the tape. -/
def Obligations.TheTapeIsNeverWritten : Prop :=
  (∀ (i : Instr) (s t : State), exec i s = .next t → t.tape = s.tape) ∧
  (∀ s t : State, step s = .next t → t.tape = s.tape)

/-- R48, R49, R50, R317: while a run is in progress no instruction but `coreReset` changes the configuration. -/
def Obligations.ConfigurationIsConstantDuringARun : Prop :=
  ∀ (i : Instr) (s t : State), i ≠ .coreReset → s.status.running = true → exec i s = .next t → t.fault = 0#4 →
    t.mode = s.mode ∧ t.tempoEn = s.tempoEn ∧ t.tempoOvr = s.tempoOvr ∧ t.gapLen = s.gapLen

/-- R30: no instruction but `coreReset` moves `ipos` back. -/
def Obligations.TapePositionNeverDecreases : Prop :=
  ∀ (i : Instr) (s t : State), i ≠ .coreReset → exec i s = .next t → t.fault = 0#4 → s.ipos ≤ t.ipos
end

