-- ==== Sys2Proof/Laws/State.lean ====
section
/-! SUPPORT. One lemma per field per named update of the state, each true by rfl, so that no proof unfolds a record update. -/

namespace Sys2Proof.Machine

variable (s : State)

/-! ### `setRunning` -/

@[simp] theorem setRunning_ipos : (setRunning s).ipos = s.ipos := rfl
@[simp] theorem setRunning_fcnt : (setRunning s).fcnt = s.fcnt := rfl
@[simp] theorem setRunning_acc : (setRunning s).acc = s.acc := rfl
@[simp] theorem setRunning_gap : (setRunning s).gap = s.gap := rfl
@[simp] theorem setRunning_widx : (setRunning s).widx = s.widx := rfl
@[simp] theorem setRunning_sumIn : (setRunning s).sumIn = s.sumIn := rfl
@[simp] theorem setRunning_sumOut : (setRunning s).sumOut = s.sumOut := rfl
@[simp] theorem setRunning_blk : (setRunning s).blk = s.blk := rfl
@[simp] theorem setRunning_count : (setRunning s).count = s.count := rfl
@[simp] theorem setRunning_idx : (setRunning s).idx = s.idx := rfl
@[simp] theorem setRunning_notesCount : (setRunning s).notesCount = s.notesCount := rfl
@[simp] theorem setRunning_notes : (setRunning s).notes = s.notes := rfl
@[simp] theorem setRunning_notesValid : (setRunning s).notesValid = s.notesValid := rfl
@[simp] theorem setRunning_out : (setRunning s).out = s.out := rfl
@[simp] theorem setRunning_opos : (setRunning s).opos = s.opos := rfl
@[simp] theorem setRunning_voice : (setRunning s).voice = s.voice := rfl
@[simp] theorem setRunning_seq : (setRunning s).seq = s.seq := rfl
@[simp] theorem setRunning_ev : (setRunning s).ev = s.ev := rfl
@[simp] theorem setRunning_mode : (setRunning s).mode = s.mode := rfl
@[simp] theorem setRunning_tempoEn : (setRunning s).tempoEn = s.tempoEn := rfl
@[simp] theorem setRunning_tempoOvr : (setRunning s).tempoOvr = s.tempoOvr := rfl
@[simp] theorem setRunning_gapLen : (setRunning s).gapLen = s.gapLen := rfl
@[simp] theorem setRunning_status : (setRunning s).status = { s.status with running := true } := rfl
@[simp] theorem setRunning_fault : (setRunning s).fault = s.fault := rfl
@[simp] theorem setRunning_finfo : (setRunning s).finfo = s.finfo := rfl
@[simp] theorem setRunning_tape : (setRunning s).tape = s.tape := rfl
@[simp] theorem setRunning_port : (setRunning s).port = s.port := rfl
@[simp] theorem setRunning_level : (setRunning s).level = s.level := rfl
@[simp] theorem setRunning_result : (setRunning s).result = s.result := rfl
@[simp] theorem setRunning_wordGap : (setRunning s).wordGap = s.wordGap := rfl
@[simp] theorem setRunning_streamEnded : (setRunning s).streamEnded = s.streamEnded := rfl
@[simp] theorem setRunning_freeDraws : (setRunning s).freeDraws = s.freeDraws := rfl
@[simp] theorem setRunning_driven : (setRunning s).driven = s.driven := rfl

/-! ### `clearRunning` -/

@[simp] theorem clearRunning_ipos : (clearRunning s).ipos = s.ipos := rfl
@[simp] theorem clearRunning_fcnt : (clearRunning s).fcnt = s.fcnt := rfl
@[simp] theorem clearRunning_acc : (clearRunning s).acc = s.acc := rfl
@[simp] theorem clearRunning_gap : (clearRunning s).gap = s.gap := rfl
@[simp] theorem clearRunning_widx : (clearRunning s).widx = s.widx := rfl
@[simp] theorem clearRunning_sumIn : (clearRunning s).sumIn = s.sumIn := rfl
@[simp] theorem clearRunning_sumOut : (clearRunning s).sumOut = s.sumOut := rfl
@[simp] theorem clearRunning_blk : (clearRunning s).blk = s.blk := rfl
@[simp] theorem clearRunning_count : (clearRunning s).count = s.count := rfl
@[simp] theorem clearRunning_idx : (clearRunning s).idx = s.idx := rfl
@[simp] theorem clearRunning_notesCount : (clearRunning s).notesCount = s.notesCount := rfl
@[simp] theorem clearRunning_notes : (clearRunning s).notes = s.notes := rfl
@[simp] theorem clearRunning_notesValid : (clearRunning s).notesValid = s.notesValid := rfl
@[simp] theorem clearRunning_out : (clearRunning s).out = s.out := rfl
@[simp] theorem clearRunning_opos : (clearRunning s).opos = s.opos := rfl
@[simp] theorem clearRunning_voice : (clearRunning s).voice = s.voice := rfl
@[simp] theorem clearRunning_seq : (clearRunning s).seq = s.seq := rfl
@[simp] theorem clearRunning_ev : (clearRunning s).ev = s.ev := rfl
@[simp] theorem clearRunning_mode : (clearRunning s).mode = s.mode := rfl
@[simp] theorem clearRunning_tempoEn : (clearRunning s).tempoEn = s.tempoEn := rfl
@[simp] theorem clearRunning_tempoOvr : (clearRunning s).tempoOvr = s.tempoOvr := rfl
@[simp] theorem clearRunning_gapLen : (clearRunning s).gapLen = s.gapLen := rfl
@[simp] theorem clearRunning_status : (clearRunning s).status = { s.status with running := false } := rfl
@[simp] theorem clearRunning_fault : (clearRunning s).fault = s.fault := rfl
@[simp] theorem clearRunning_finfo : (clearRunning s).finfo = s.finfo := rfl
@[simp] theorem clearRunning_tape : (clearRunning s).tape = s.tape := rfl
@[simp] theorem clearRunning_port : (clearRunning s).port = s.port := rfl
@[simp] theorem clearRunning_level : (clearRunning s).level = s.level := rfl
@[simp] theorem clearRunning_result : (clearRunning s).result = s.result := rfl
@[simp] theorem clearRunning_wordGap : (clearRunning s).wordGap = s.wordGap := rfl
@[simp] theorem clearRunning_streamEnded : (clearRunning s).streamEnded = s.streamEnded := rfl
@[simp] theorem clearRunning_freeDraws : (clearRunning s).freeDraws = s.freeDraws := rfl
@[simp] theorem clearRunning_driven : (clearRunning s).driven = s.driven := rfl

/-! ### `setDone` -/

@[simp] theorem setDone_ipos : (setDone s).ipos = s.ipos := rfl
@[simp] theorem setDone_fcnt : (setDone s).fcnt = s.fcnt := rfl
@[simp] theorem setDone_acc : (setDone s).acc = s.acc := rfl
@[simp] theorem setDone_gap : (setDone s).gap = s.gap := rfl
@[simp] theorem setDone_widx : (setDone s).widx = s.widx := rfl
@[simp] theorem setDone_sumIn : (setDone s).sumIn = s.sumIn := rfl
@[simp] theorem setDone_sumOut : (setDone s).sumOut = s.sumOut := rfl
@[simp] theorem setDone_blk : (setDone s).blk = s.blk := rfl
@[simp] theorem setDone_count : (setDone s).count = s.count := rfl
@[simp] theorem setDone_idx : (setDone s).idx = s.idx := rfl
@[simp] theorem setDone_notesCount : (setDone s).notesCount = s.notesCount := rfl
@[simp] theorem setDone_notes : (setDone s).notes = s.notes := rfl
@[simp] theorem setDone_notesValid : (setDone s).notesValid = s.notesValid := rfl
@[simp] theorem setDone_out : (setDone s).out = s.out := rfl
@[simp] theorem setDone_opos : (setDone s).opos = s.opos := rfl
@[simp] theorem setDone_voice : (setDone s).voice = s.voice := rfl
@[simp] theorem setDone_seq : (setDone s).seq = s.seq := rfl
@[simp] theorem setDone_ev : (setDone s).ev = s.ev := rfl
@[simp] theorem setDone_mode : (setDone s).mode = s.mode := rfl
@[simp] theorem setDone_tempoEn : (setDone s).tempoEn = s.tempoEn := rfl
@[simp] theorem setDone_tempoOvr : (setDone s).tempoOvr = s.tempoOvr := rfl
@[simp] theorem setDone_gapLen : (setDone s).gapLen = s.gapLen := rfl
@[simp] theorem setDone_status : (setDone s).status = { running := false, done := true, outValid := decide (s.mode = .tweak) } := rfl
@[simp] theorem setDone_fault : (setDone s).fault = s.fault := rfl
@[simp] theorem setDone_finfo : (setDone s).finfo = s.finfo := rfl
@[simp] theorem setDone_tape : (setDone s).tape = s.tape := rfl
@[simp] theorem setDone_port : (setDone s).port = s.port := rfl
@[simp] theorem setDone_level : (setDone s).level = s.level := rfl
@[simp] theorem setDone_result : (setDone s).result = s.result := rfl
@[simp] theorem setDone_wordGap : (setDone s).wordGap = s.wordGap := rfl
@[simp] theorem setDone_streamEnded : (setDone s).streamEnded = s.streamEnded := rfl
@[simp] theorem setDone_freeDraws : (setDone s).freeDraws = s.freeDraws := rfl
@[simp] theorem setDone_driven : (setDone s).driven = s.driven := rfl

/-! ### `drive` -/

@[simp] theorem drive_ipos : (drive s).ipos = s.ipos := rfl
@[simp] theorem drive_fcnt : (drive s).fcnt = s.fcnt := rfl
@[simp] theorem drive_acc : (drive s).acc = s.acc := rfl
@[simp] theorem drive_gap : (drive s).gap = s.gap := rfl
@[simp] theorem drive_widx : (drive s).widx = s.widx := rfl
@[simp] theorem drive_sumIn : (drive s).sumIn = s.sumIn := rfl
@[simp] theorem drive_sumOut : (drive s).sumOut = s.sumOut := rfl
@[simp] theorem drive_blk : (drive s).blk = s.blk := rfl
@[simp] theorem drive_count : (drive s).count = s.count := rfl
@[simp] theorem drive_idx : (drive s).idx = s.idx := rfl
@[simp] theorem drive_notesCount : (drive s).notesCount = s.notesCount := rfl
@[simp] theorem drive_notes : (drive s).notes = s.notes := rfl
@[simp] theorem drive_notesValid : (drive s).notesValid = s.notesValid := rfl
@[simp] theorem drive_out : (drive s).out = s.out := rfl
@[simp] theorem drive_opos : (drive s).opos = s.opos := rfl
@[simp] theorem drive_voice : (drive s).voice = s.voice := rfl
@[simp] theorem drive_seq : (drive s).seq = s.seq := rfl
@[simp] theorem drive_ev : (drive s).ev = s.ev := rfl
@[simp] theorem drive_mode : (drive s).mode = s.mode := rfl
@[simp] theorem drive_tempoEn : (drive s).tempoEn = s.tempoEn := rfl
@[simp] theorem drive_tempoOvr : (drive s).tempoOvr = s.tempoOvr := rfl
@[simp] theorem drive_gapLen : (drive s).gapLen = s.gapLen := rfl
@[simp] theorem drive_status : (drive s).status = s.status := rfl
@[simp] theorem drive_fault : (drive s).fault = s.fault := rfl
@[simp] theorem drive_finfo : (drive s).finfo = s.finfo := rfl
@[simp] theorem drive_tape : (drive s).tape = s.tape := rfl
@[simp] theorem drive_port : (drive s).port = s.port := rfl
@[simp] theorem drive_level : (drive s).level = s.level := rfl
@[simp] theorem drive_result : (drive s).result = s.result := rfl
@[simp] theorem drive_wordGap : (drive s).wordGap = s.wordGap := rfl
@[simp] theorem drive_streamEnded : (drive s).streamEnded = s.streamEnded := rfl
@[simp] theorem drive_freeDraws : (drive s).freeDraws = s.freeDraws := rfl
@[simp] theorem drive_driven : (drive s).driven = (s.driven || !s.status.running) := rfl

/-! ### `raise` -/

@[simp] theorem raise_ipos (k : FaultKind) (info : FInfo) : (raise k info s).ipos = s.ipos := rfl
@[simp] theorem raise_fcnt (k : FaultKind) (info : FInfo) : (raise k info s).fcnt = s.fcnt := rfl
@[simp] theorem raise_acc (k : FaultKind) (info : FInfo) : (raise k info s).acc = s.acc := rfl
@[simp] theorem raise_gap (k : FaultKind) (info : FInfo) : (raise k info s).gap = s.gap := rfl
@[simp] theorem raise_widx (k : FaultKind) (info : FInfo) : (raise k info s).widx = s.widx := rfl
@[simp] theorem raise_sumIn (k : FaultKind) (info : FInfo) : (raise k info s).sumIn = s.sumIn := rfl
@[simp] theorem raise_sumOut (k : FaultKind) (info : FInfo) : (raise k info s).sumOut = s.sumOut := rfl
@[simp] theorem raise_blk (k : FaultKind) (info : FInfo) : (raise k info s).blk = s.blk := rfl
@[simp] theorem raise_count (k : FaultKind) (info : FInfo) : (raise k info s).count = s.count := rfl
@[simp] theorem raise_idx (k : FaultKind) (info : FInfo) : (raise k info s).idx = s.idx := rfl
@[simp] theorem raise_notesCount (k : FaultKind) (info : FInfo) : (raise k info s).notesCount = s.notesCount := rfl
@[simp] theorem raise_notes (k : FaultKind) (info : FInfo) : (raise k info s).notes = s.notes := rfl
@[simp] theorem raise_notesValid (k : FaultKind) (info : FInfo) : (raise k info s).notesValid = s.notesValid := rfl
@[simp] theorem raise_out (k : FaultKind) (info : FInfo) : (raise k info s).out = s.out := rfl
@[simp] theorem raise_opos (k : FaultKind) (info : FInfo) : (raise k info s).opos = s.opos := rfl
@[simp] theorem raise_voice (k : FaultKind) (info : FInfo) : (raise k info s).voice = s.voice := rfl
@[simp] theorem raise_seq (k : FaultKind) (info : FInfo) : (raise k info s).seq = .faulted := rfl
@[simp] theorem raise_ev (k : FaultKind) (info : FInfo) : (raise k info s).ev = s.ev := rfl
@[simp] theorem raise_mode (k : FaultKind) (info : FInfo) : (raise k info s).mode = s.mode := rfl
@[simp] theorem raise_tempoEn (k : FaultKind) (info : FInfo) : (raise k info s).tempoEn = s.tempoEn := rfl
@[simp] theorem raise_tempoOvr (k : FaultKind) (info : FInfo) : (raise k info s).tempoOvr = s.tempoOvr := rfl
@[simp] theorem raise_gapLen (k : FaultKind) (info : FInfo) : (raise k info s).gapLen = s.gapLen := rfl
@[simp] theorem raise_status (k : FaultKind) (info : FInfo) : (raise k info s).status = { s.status with running := false } := rfl
@[simp] theorem raise_fault (k : FaultKind) (info : FInfo) : (raise k info s).fault = k.code := rfl
@[simp] theorem raise_finfo (k : FaultKind) (info : FInfo) : (raise k info s).finfo = info := rfl
@[simp] theorem raise_tape (k : FaultKind) (info : FInfo) : (raise k info s).tape = s.tape := rfl
@[simp] theorem raise_port (k : FaultKind) (info : FInfo) : (raise k info s).port = s.port := rfl
@[simp] theorem raise_level (k : FaultKind) (info : FInfo) : (raise k info s).level = s.level := rfl
@[simp] theorem raise_result (k : FaultKind) (info : FInfo) : (raise k info s).result = s.result := rfl
@[simp] theorem raise_wordGap (k : FaultKind) (info : FInfo) : (raise k info s).wordGap = s.wordGap := rfl
@[simp] theorem raise_streamEnded (k : FaultKind) (info : FInfo) : (raise k info s).streamEnded = s.streamEnded := rfl
@[simp] theorem raise_freeDraws (k : FaultKind) (info : FInfo) : (raise k info s).freeDraws = s.freeDraws := rfl
@[simp] theorem raise_driven (k : FaultKind) (info : FInfo) : (raise k info s).driven = s.driven := rfl

/-! ### `setResult` -/

@[simp] theorem setResult_ipos (r : Result) : (setResult r s).ipos = s.ipos := rfl
@[simp] theorem setResult_fcnt (r : Result) : (setResult r s).fcnt = s.fcnt := rfl
@[simp] theorem setResult_acc (r : Result) : (setResult r s).acc = s.acc := rfl
@[simp] theorem setResult_gap (r : Result) : (setResult r s).gap = s.gap := rfl
@[simp] theorem setResult_widx (r : Result) : (setResult r s).widx = s.widx := rfl
@[simp] theorem setResult_sumIn (r : Result) : (setResult r s).sumIn = s.sumIn := rfl
@[simp] theorem setResult_sumOut (r : Result) : (setResult r s).sumOut = s.sumOut := rfl
@[simp] theorem setResult_blk (r : Result) : (setResult r s).blk = s.blk := rfl
@[simp] theorem setResult_count (r : Result) : (setResult r s).count = s.count := rfl
@[simp] theorem setResult_idx (r : Result) : (setResult r s).idx = s.idx := rfl
@[simp] theorem setResult_notesCount (r : Result) : (setResult r s).notesCount = s.notesCount := rfl
@[simp] theorem setResult_notes (r : Result) : (setResult r s).notes = s.notes := rfl
@[simp] theorem setResult_notesValid (r : Result) : (setResult r s).notesValid = s.notesValid := rfl
@[simp] theorem setResult_out (r : Result) : (setResult r s).out = s.out := rfl
@[simp] theorem setResult_opos (r : Result) : (setResult r s).opos = s.opos := rfl
@[simp] theorem setResult_voice (r : Result) : (setResult r s).voice = s.voice := rfl
@[simp] theorem setResult_seq (r : Result) : (setResult r s).seq = s.seq := rfl
@[simp] theorem setResult_ev (r : Result) : (setResult r s).ev = s.ev := rfl
@[simp] theorem setResult_mode (r : Result) : (setResult r s).mode = s.mode := rfl
@[simp] theorem setResult_tempoEn (r : Result) : (setResult r s).tempoEn = s.tempoEn := rfl
@[simp] theorem setResult_tempoOvr (r : Result) : (setResult r s).tempoOvr = s.tempoOvr := rfl
@[simp] theorem setResult_gapLen (r : Result) : (setResult r s).gapLen = s.gapLen := rfl
@[simp] theorem setResult_status (r : Result) : (setResult r s).status = s.status := rfl
@[simp] theorem setResult_fault (r : Result) : (setResult r s).fault = s.fault := rfl
@[simp] theorem setResult_finfo (r : Result) : (setResult r s).finfo = s.finfo := rfl
@[simp] theorem setResult_tape (r : Result) : (setResult r s).tape = s.tape := rfl
@[simp] theorem setResult_port (r : Result) : (setResult r s).port = s.port := rfl
@[simp] theorem setResult_level (r : Result) : (setResult r s).level = s.level := rfl
@[simp] theorem setResult_result (r : Result) : (setResult r s).result = r := rfl
@[simp] theorem setResult_wordGap (r : Result) : (setResult r s).wordGap = s.wordGap := rfl
@[simp] theorem setResult_streamEnded (r : Result) : (setResult r s).streamEnded = s.streamEnded := rfl
@[simp] theorem setResult_freeDraws (r : Result) : (setResult r s).freeDraws = s.freeDraws := rfl
@[simp] theorem setResult_driven (r : Result) : (setResult r s).driven = s.driven := rfl

/-! ### `faultResult` -/

@[simp] theorem faultResult_ipos : (faultResult s).ipos = s.ipos := rfl
@[simp] theorem faultResult_fcnt : (faultResult s).fcnt = s.fcnt := rfl
@[simp] theorem faultResult_acc : (faultResult s).acc = s.acc := rfl
@[simp] theorem faultResult_gap : (faultResult s).gap = s.gap := rfl
@[simp] theorem faultResult_widx : (faultResult s).widx = s.widx := rfl
@[simp] theorem faultResult_sumIn : (faultResult s).sumIn = s.sumIn := rfl
@[simp] theorem faultResult_sumOut : (faultResult s).sumOut = s.sumOut := rfl
@[simp] theorem faultResult_blk : (faultResult s).blk = s.blk := rfl
@[simp] theorem faultResult_count : (faultResult s).count = s.count := rfl
@[simp] theorem faultResult_idx : (faultResult s).idx = s.idx := rfl
@[simp] theorem faultResult_notesCount : (faultResult s).notesCount = s.notesCount := rfl
@[simp] theorem faultResult_notes : (faultResult s).notes = s.notes := rfl
@[simp] theorem faultResult_notesValid : (faultResult s).notesValid = s.notesValid := rfl
@[simp] theorem faultResult_out : (faultResult s).out = s.out := rfl
@[simp] theorem faultResult_opos : (faultResult s).opos = s.opos := rfl
@[simp] theorem faultResult_voice : (faultResult s).voice = s.voice := rfl
@[simp] theorem faultResult_seq : (faultResult s).seq = s.seq := rfl
@[simp] theorem faultResult_ev : (faultResult s).ev = s.ev := rfl
@[simp] theorem faultResult_mode : (faultResult s).mode = s.mode := rfl
@[simp] theorem faultResult_tempoEn : (faultResult s).tempoEn = s.tempoEn := rfl
@[simp] theorem faultResult_tempoOvr : (faultResult s).tempoOvr = s.tempoOvr := rfl
@[simp] theorem faultResult_gapLen : (faultResult s).gapLen = s.gapLen := rfl
@[simp] theorem faultResult_status : (faultResult s).status = s.status := rfl
@[simp] theorem faultResult_fault : (faultResult s).fault = s.fault := rfl
@[simp] theorem faultResult_finfo : (faultResult s).finfo = s.finfo := rfl
@[simp] theorem faultResult_tape : (faultResult s).tape = s.tape := rfl
@[simp] theorem faultResult_port : (faultResult s).port = s.port := rfl
@[simp] theorem faultResult_level : (faultResult s).level = s.level := rfl
@[simp] theorem faultResult_result : (faultResult s).result = .fault s.fault s.finfo := rfl
@[simp] theorem faultResult_wordGap : (faultResult s).wordGap = s.wordGap := rfl
@[simp] theorem faultResult_streamEnded : (faultResult s).streamEnded = s.streamEnded := rfl
@[simp] theorem faultResult_freeDraws : (faultResult s).freeDraws = s.freeDraws := rfl
@[simp] theorem faultResult_driven : (faultResult s).driven = s.driven := rfl

/-! ### `emit` -/

@[simp] theorem emit_ipos (e : Event) : (emit e s).ipos = s.ipos := rfl
@[simp] theorem emit_fcnt (e : Event) : (emit e s).fcnt = s.fcnt := rfl
@[simp] theorem emit_acc (e : Event) : (emit e s).acc = s.acc := rfl
@[simp] theorem emit_gap (e : Event) : (emit e s).gap = s.gap := rfl
@[simp] theorem emit_widx (e : Event) : (emit e s).widx = s.widx := rfl
@[simp] theorem emit_sumIn (e : Event) : (emit e s).sumIn = s.sumIn := rfl
@[simp] theorem emit_sumOut (e : Event) : (emit e s).sumOut = s.sumOut := rfl
@[simp] theorem emit_blk (e : Event) : (emit e s).blk = s.blk := rfl
@[simp] theorem emit_count (e : Event) : (emit e s).count = s.count := rfl
@[simp] theorem emit_idx (e : Event) : (emit e s).idx = s.idx := rfl
@[simp] theorem emit_notesCount (e : Event) : (emit e s).notesCount = s.notesCount := rfl
@[simp] theorem emit_notes (e : Event) : (emit e s).notes = s.notes := rfl
@[simp] theorem emit_notesValid (e : Event) : (emit e s).notesValid = s.notesValid := rfl
@[simp] theorem emit_out (e : Event) : (emit e s).out = s.out := rfl
@[simp] theorem emit_opos (e : Event) : (emit e s).opos = s.opos := rfl
@[simp] theorem emit_voice (e : Event) : (emit e s).voice = s.voice := rfl
@[simp] theorem emit_seq (e : Event) : (emit e s).seq = s.seq := rfl
@[simp] theorem emit_ev (e : Event) : (emit e s).ev = s.ev ++ [e] := rfl
@[simp] theorem emit_mode (e : Event) : (emit e s).mode = s.mode := rfl
@[simp] theorem emit_tempoEn (e : Event) : (emit e s).tempoEn = s.tempoEn := rfl
@[simp] theorem emit_tempoOvr (e : Event) : (emit e s).tempoOvr = s.tempoOvr := rfl
@[simp] theorem emit_gapLen (e : Event) : (emit e s).gapLen = s.gapLen := rfl
@[simp] theorem emit_status (e : Event) : (emit e s).status = s.status := rfl
@[simp] theorem emit_fault (e : Event) : (emit e s).fault = s.fault := rfl
@[simp] theorem emit_finfo (e : Event) : (emit e s).finfo = s.finfo := rfl
@[simp] theorem emit_tape (e : Event) : (emit e s).tape = s.tape := rfl
@[simp] theorem emit_port (e : Event) : (emit e s).port = s.port := rfl
@[simp] theorem emit_level (e : Event) : (emit e s).level = s.level := rfl
@[simp] theorem emit_result (e : Event) : (emit e s).result = s.result := rfl
@[simp] theorem emit_wordGap (e : Event) : (emit e s).wordGap = s.wordGap := rfl
@[simp] theorem emit_streamEnded (e : Event) : (emit e s).streamEnded = s.streamEnded := rfl
@[simp] theorem emit_freeDraws (e : Event) : (emit e s).freeDraws = s.freeDraws := rfl
@[simp] theorem emit_driven (e : Event) : (emit e s).driven = s.driven := rfl

/-! ### `appendFrames` -/

@[simp] theorem appendFrames_ipos (fs : List Frame) : (appendFrames fs s).ipos = s.ipos := rfl
@[simp] theorem appendFrames_fcnt (fs : List Frame) : (appendFrames fs s).fcnt = s.fcnt := rfl
@[simp] theorem appendFrames_acc (fs : List Frame) : (appendFrames fs s).acc = s.acc := rfl
@[simp] theorem appendFrames_gap (fs : List Frame) : (appendFrames fs s).gap = s.gap := rfl
@[simp] theorem appendFrames_widx (fs : List Frame) : (appendFrames fs s).widx = s.widx := rfl
@[simp] theorem appendFrames_sumIn (fs : List Frame) : (appendFrames fs s).sumIn = s.sumIn := rfl
@[simp] theorem appendFrames_sumOut (fs : List Frame) : (appendFrames fs s).sumOut = s.sumOut := rfl
@[simp] theorem appendFrames_blk (fs : List Frame) : (appendFrames fs s).blk = s.blk := rfl
@[simp] theorem appendFrames_count (fs : List Frame) : (appendFrames fs s).count = s.count := rfl
@[simp] theorem appendFrames_idx (fs : List Frame) : (appendFrames fs s).idx = s.idx := rfl
@[simp] theorem appendFrames_notesCount (fs : List Frame) : (appendFrames fs s).notesCount = s.notesCount := rfl
@[simp] theorem appendFrames_notes (fs : List Frame) : (appendFrames fs s).notes = s.notes := rfl
@[simp] theorem appendFrames_notesValid (fs : List Frame) : (appendFrames fs s).notesValid = s.notesValid := rfl
@[simp] theorem appendFrames_out (fs : List Frame) : (appendFrames fs s).out = s.out ++ fs := rfl
@[simp] theorem appendFrames_opos (fs : List Frame) : (appendFrames fs s).opos = s.opos + fs.length := rfl
@[simp] theorem appendFrames_voice (fs : List Frame) : (appendFrames fs s).voice = s.voice := rfl
@[simp] theorem appendFrames_seq (fs : List Frame) : (appendFrames fs s).seq = s.seq := rfl
@[simp] theorem appendFrames_ev (fs : List Frame) : (appendFrames fs s).ev = s.ev := rfl
@[simp] theorem appendFrames_mode (fs : List Frame) : (appendFrames fs s).mode = s.mode := rfl
@[simp] theorem appendFrames_tempoEn (fs : List Frame) : (appendFrames fs s).tempoEn = s.tempoEn := rfl
@[simp] theorem appendFrames_tempoOvr (fs : List Frame) : (appendFrames fs s).tempoOvr = s.tempoOvr := rfl
@[simp] theorem appendFrames_gapLen (fs : List Frame) : (appendFrames fs s).gapLen = s.gapLen := rfl
@[simp] theorem appendFrames_status (fs : List Frame) : (appendFrames fs s).status = s.status := rfl
@[simp] theorem appendFrames_fault (fs : List Frame) : (appendFrames fs s).fault = s.fault := rfl
@[simp] theorem appendFrames_finfo (fs : List Frame) : (appendFrames fs s).finfo = s.finfo := rfl
@[simp] theorem appendFrames_tape (fs : List Frame) : (appendFrames fs s).tape = s.tape := rfl
@[simp] theorem appendFrames_port (fs : List Frame) : (appendFrames fs s).port = s.port := rfl
@[simp] theorem appendFrames_level (fs : List Frame) : (appendFrames fs s).level = s.level := rfl
@[simp] theorem appendFrames_result (fs : List Frame) : (appendFrames fs s).result = s.result := rfl
@[simp] theorem appendFrames_wordGap (fs : List Frame) : (appendFrames fs s).wordGap = s.wordGap := rfl
@[simp] theorem appendFrames_streamEnded (fs : List Frame) : (appendFrames fs s).streamEnded = s.streamEnded := rfl
@[simp] theorem appendFrames_freeDraws (fs : List Frame) : (appendFrames fs s).freeDraws = s.freeDraws := rfl
@[simp] theorem appendFrames_driven (fs : List Frame) : (appendFrames fs s).driven = s.driven := rfl

/-! ### `passFrame` -/

@[simp] theorem passFrame_ipos : (passFrame s).ipos = s.ipos + 1 := rfl
@[simp] theorem passFrame_fcnt : (passFrame s).fcnt = s.fcnt := rfl
@[simp] theorem passFrame_acc : (passFrame s).acc = s.acc := rfl
@[simp] theorem passFrame_gap : (passFrame s).gap = s.gap := rfl
@[simp] theorem passFrame_widx : (passFrame s).widx = s.widx := rfl
@[simp] theorem passFrame_sumIn : (passFrame s).sumIn = s.sumIn := rfl
@[simp] theorem passFrame_sumOut : (passFrame s).sumOut = s.sumOut := rfl
@[simp] theorem passFrame_blk : (passFrame s).blk = s.blk := rfl
@[simp] theorem passFrame_count : (passFrame s).count = s.count := rfl
@[simp] theorem passFrame_idx : (passFrame s).idx = s.idx := rfl
@[simp] theorem passFrame_notesCount : (passFrame s).notesCount = s.notesCount := rfl
@[simp] theorem passFrame_notes : (passFrame s).notes = s.notes := rfl
@[simp] theorem passFrame_notesValid : (passFrame s).notesValid = s.notesValid := rfl
@[simp] theorem passFrame_out : (passFrame s).out = s.out := rfl
@[simp] theorem passFrame_opos : (passFrame s).opos = s.opos := rfl
@[simp] theorem passFrame_voice : (passFrame s).voice = s.voice := rfl
@[simp] theorem passFrame_seq : (passFrame s).seq = s.seq := rfl
@[simp] theorem passFrame_ev : (passFrame s).ev = s.ev := rfl
@[simp] theorem passFrame_mode : (passFrame s).mode = s.mode := rfl
@[simp] theorem passFrame_tempoEn : (passFrame s).tempoEn = s.tempoEn := rfl
@[simp] theorem passFrame_tempoOvr : (passFrame s).tempoOvr = s.tempoOvr := rfl
@[simp] theorem passFrame_gapLen : (passFrame s).gapLen = s.gapLen := rfl
@[simp] theorem passFrame_status : (passFrame s).status = s.status := rfl
@[simp] theorem passFrame_fault : (passFrame s).fault = s.fault := rfl
@[simp] theorem passFrame_finfo : (passFrame s).finfo = s.finfo := rfl
@[simp] theorem passFrame_tape : (passFrame s).tape = s.tape := rfl
@[simp] theorem passFrame_port : (passFrame s).port = s.port := rfl
@[simp] theorem passFrame_level : (passFrame s).level = s.level := rfl
@[simp] theorem passFrame_result : (passFrame s).result = s.result := rfl
@[simp] theorem passFrame_wordGap : (passFrame s).wordGap = s.wordGap := rfl
@[simp] theorem passFrame_streamEnded : (passFrame s).streamEnded = s.streamEnded := rfl
@[simp] theorem passFrame_freeDraws : (passFrame s).freeDraws = s.freeDraws := rfl
@[simp] theorem passFrame_driven : (passFrame s).driven = s.driven := rfl

/-! ### `beginNotes` -/

@[simp] theorem beginNotes_ipos : (beginNotes s).ipos = s.ipos := rfl
@[simp] theorem beginNotes_fcnt : (beginNotes s).fcnt = s.fcnt := rfl
@[simp] theorem beginNotes_acc : (beginNotes s).acc = s.acc := rfl
@[simp] theorem beginNotes_gap : (beginNotes s).gap = s.gap := rfl
@[simp] theorem beginNotes_widx : (beginNotes s).widx = s.widx := rfl
@[simp] theorem beginNotes_sumIn : (beginNotes s).sumIn = 0#18 := rfl
@[simp] theorem beginNotes_sumOut : (beginNotes s).sumOut = 0#18 := rfl
@[simp] theorem beginNotes_blk : (beginNotes s).blk = .notes := rfl
@[simp] theorem beginNotes_count : (beginNotes s).count = s.count := rfl
@[simp] theorem beginNotes_idx : (beginNotes s).idx = 0 := rfl
@[simp] theorem beginNotes_notesCount : (beginNotes s).notesCount = 0#18 := rfl
@[simp] theorem beginNotes_notes : (beginNotes s).notes = [] := rfl
@[simp] theorem beginNotes_notesValid : (beginNotes s).notesValid = false := rfl
@[simp] theorem beginNotes_out : (beginNotes s).out = s.out := rfl
@[simp] theorem beginNotes_opos : (beginNotes s).opos = s.opos := rfl
@[simp] theorem beginNotes_voice : (beginNotes s).voice = s.voice := rfl
@[simp] theorem beginNotes_seq : (beginNotes s).seq = s.seq := rfl
@[simp] theorem beginNotes_ev : (beginNotes s).ev = s.ev := rfl
@[simp] theorem beginNotes_mode : (beginNotes s).mode = s.mode := rfl
@[simp] theorem beginNotes_tempoEn : (beginNotes s).tempoEn = s.tempoEn := rfl
@[simp] theorem beginNotes_tempoOvr : (beginNotes s).tempoOvr = s.tempoOvr := rfl
@[simp] theorem beginNotes_gapLen : (beginNotes s).gapLen = s.gapLen := rfl
@[simp] theorem beginNotes_status : (beginNotes s).status = s.status := rfl
@[simp] theorem beginNotes_fault : (beginNotes s).fault = s.fault := rfl
@[simp] theorem beginNotes_finfo : (beginNotes s).finfo = s.finfo := rfl
@[simp] theorem beginNotes_tape : (beginNotes s).tape = s.tape := rfl
@[simp] theorem beginNotes_port : (beginNotes s).port = s.port := rfl
@[simp] theorem beginNotes_level : (beginNotes s).level = s.level := rfl
@[simp] theorem beginNotes_result : (beginNotes s).result = s.result := rfl
@[simp] theorem beginNotes_wordGap : (beginNotes s).wordGap = s.wordGap := rfl
@[simp] theorem beginNotes_streamEnded : (beginNotes s).streamEnded = s.streamEnded := rfl
@[simp] theorem beginNotes_freeDraws : (beginNotes s).freeDraws = s.freeDraws := rfl
@[simp] theorem beginNotes_driven : (beginNotes s).driven = s.driven := rfl

/-! ### `beginBars` -/

@[simp] theorem beginBars_ipos : (beginBars s).ipos = s.ipos := rfl
@[simp] theorem beginBars_fcnt : (beginBars s).fcnt = s.fcnt := rfl
@[simp] theorem beginBars_acc : (beginBars s).acc = s.acc := rfl
@[simp] theorem beginBars_gap : (beginBars s).gap = s.gap := rfl
@[simp] theorem beginBars_widx : (beginBars s).widx = s.widx := rfl
@[simp] theorem beginBars_sumIn : (beginBars s).sumIn = 0#18 := rfl
@[simp] theorem beginBars_sumOut : (beginBars s).sumOut = s.sumOut := rfl
@[simp] theorem beginBars_blk : (beginBars s).blk = .bars := rfl
@[simp] theorem beginBars_count : (beginBars s).count = s.count := rfl
@[simp] theorem beginBars_idx : (beginBars s).idx = 0 := rfl
@[simp] theorem beginBars_notesCount : (beginBars s).notesCount = s.notesCount := rfl
@[simp] theorem beginBars_notes : (beginBars s).notes = s.notes := rfl
@[simp] theorem beginBars_notesValid : (beginBars s).notesValid = s.notesValid := rfl
@[simp] theorem beginBars_out : (beginBars s).out = s.out := rfl
@[simp] theorem beginBars_opos : (beginBars s).opos = s.opos := rfl
@[simp] theorem beginBars_voice : (beginBars s).voice = s.voice := rfl
@[simp] theorem beginBars_seq : (beginBars s).seq = s.seq := rfl
@[simp] theorem beginBars_ev : (beginBars s).ev = s.ev := rfl
@[simp] theorem beginBars_mode : (beginBars s).mode = s.mode := rfl
@[simp] theorem beginBars_tempoEn : (beginBars s).tempoEn = s.tempoEn := rfl
@[simp] theorem beginBars_tempoOvr : (beginBars s).tempoOvr = s.tempoOvr := rfl
@[simp] theorem beginBars_gapLen : (beginBars s).gapLen = s.gapLen := rfl
@[simp] theorem beginBars_status : (beginBars s).status = s.status := rfl
@[simp] theorem beginBars_fault : (beginBars s).fault = s.fault := rfl
@[simp] theorem beginBars_finfo : (beginBars s).finfo = s.finfo := rfl
@[simp] theorem beginBars_tape : (beginBars s).tape = s.tape := rfl
@[simp] theorem beginBars_port : (beginBars s).port = s.port := rfl
@[simp] theorem beginBars_level : (beginBars s).level = s.level := rfl
@[simp] theorem beginBars_result : (beginBars s).result = s.result := rfl
@[simp] theorem beginBars_wordGap : (beginBars s).wordGap = s.wordGap := rfl
@[simp] theorem beginBars_streamEnded : (beginBars s).streamEnded = s.streamEnded := rfl
@[simp] theorem beginBars_freeDraws : (beginBars s).freeDraws = s.freeDraws := rfl
@[simp] theorem beginBars_driven : (beginBars s).driven = s.driven := rfl

/-! ### `copyWord` and `copyGap`: only `out` and `opos` can change -/

@[simp] theorem copyWord_ipos (w : Word) : (copyWord w s).ipos = s.ipos := by unfold copyWord; split <;> rfl
@[simp] theorem copyWord_fcnt (w : Word) : (copyWord w s).fcnt = s.fcnt := by unfold copyWord; split <;> rfl
@[simp] theorem copyWord_acc (w : Word) : (copyWord w s).acc = s.acc := by unfold copyWord; split <;> rfl
@[simp] theorem copyWord_gap (w : Word) : (copyWord w s).gap = s.gap := by unfold copyWord; split <;> rfl
@[simp] theorem copyWord_widx (w : Word) : (copyWord w s).widx = s.widx := by unfold copyWord; split <;> rfl
@[simp] theorem copyWord_sumIn (w : Word) : (copyWord w s).sumIn = s.sumIn := by unfold copyWord; split <;> rfl
@[simp] theorem copyWord_sumOut (w : Word) : (copyWord w s).sumOut = s.sumOut := by unfold copyWord; split <;> rfl
@[simp] theorem copyWord_blk (w : Word) : (copyWord w s).blk = s.blk := by unfold copyWord; split <;> rfl
@[simp] theorem copyWord_count (w : Word) : (copyWord w s).count = s.count := by unfold copyWord; split <;> rfl
@[simp] theorem copyWord_idx (w : Word) : (copyWord w s).idx = s.idx := by unfold copyWord; split <;> rfl
@[simp] theorem copyWord_notesCount (w : Word) : (copyWord w s).notesCount = s.notesCount := by unfold copyWord; split <;> rfl
@[simp] theorem copyWord_notes (w : Word) : (copyWord w s).notes = s.notes := by unfold copyWord; split <;> rfl
@[simp] theorem copyWord_notesValid (w : Word) : (copyWord w s).notesValid = s.notesValid := by unfold copyWord; split <;> rfl
@[simp] theorem copyWord_voice (w : Word) : (copyWord w s).voice = s.voice := by unfold copyWord; split <;> rfl
@[simp] theorem copyWord_seq (w : Word) : (copyWord w s).seq = s.seq := by unfold copyWord; split <;> rfl
@[simp] theorem copyWord_ev (w : Word) : (copyWord w s).ev = s.ev := by unfold copyWord; split <;> rfl
@[simp] theorem copyWord_mode (w : Word) : (copyWord w s).mode = s.mode := by unfold copyWord; split <;> rfl
@[simp] theorem copyWord_tempoEn (w : Word) : (copyWord w s).tempoEn = s.tempoEn := by unfold copyWord; split <;> rfl
@[simp] theorem copyWord_tempoOvr (w : Word) : (copyWord w s).tempoOvr = s.tempoOvr := by unfold copyWord; split <;> rfl
@[simp] theorem copyWord_gapLen (w : Word) : (copyWord w s).gapLen = s.gapLen := by unfold copyWord; split <;> rfl
@[simp] theorem copyWord_status (w : Word) : (copyWord w s).status = s.status := by unfold copyWord; split <;> rfl
@[simp] theorem copyWord_fault (w : Word) : (copyWord w s).fault = s.fault := by unfold copyWord; split <;> rfl
@[simp] theorem copyWord_finfo (w : Word) : (copyWord w s).finfo = s.finfo := by unfold copyWord; split <;> rfl
@[simp] theorem copyWord_tape (w : Word) : (copyWord w s).tape = s.tape := by unfold copyWord; split <;> rfl
@[simp] theorem copyWord_port (w : Word) : (copyWord w s).port = s.port := by unfold copyWord; split <;> rfl
@[simp] theorem copyWord_level (w : Word) : (copyWord w s).level = s.level := by unfold copyWord; split <;> rfl
@[simp] theorem copyWord_result (w : Word) : (copyWord w s).result = s.result := by unfold copyWord; split <;> rfl
@[simp] theorem copyWord_wordGap (w : Word) : (copyWord w s).wordGap = s.wordGap := by unfold copyWord; split <;> rfl
@[simp] theorem copyWord_streamEnded (w : Word) : (copyWord w s).streamEnded = s.streamEnded := by unfold copyWord; split <;> rfl
@[simp] theorem copyWord_freeDraws (w : Word) : (copyWord w s).freeDraws = s.freeDraws := by unfold copyWord; split <;> rfl
@[simp] theorem copyWord_driven (w : Word) : (copyWord w s).driven = s.driven := by unfold copyWord; split <;> rfl

@[simp] theorem copyGap_ipos (n : Nat) : (copyGap n s).ipos = s.ipos := by unfold copyGap; split <;> rfl
@[simp] theorem copyGap_fcnt (n : Nat) : (copyGap n s).fcnt = s.fcnt := by unfold copyGap; split <;> rfl
@[simp] theorem copyGap_acc (n : Nat) : (copyGap n s).acc = s.acc := by unfold copyGap; split <;> rfl
@[simp] theorem copyGap_gap (n : Nat) : (copyGap n s).gap = s.gap := by unfold copyGap; split <;> rfl
@[simp] theorem copyGap_widx (n : Nat) : (copyGap n s).widx = s.widx := by unfold copyGap; split <;> rfl
@[simp] theorem copyGap_sumIn (n : Nat) : (copyGap n s).sumIn = s.sumIn := by unfold copyGap; split <;> rfl
@[simp] theorem copyGap_sumOut (n : Nat) : (copyGap n s).sumOut = s.sumOut := by unfold copyGap; split <;> rfl
@[simp] theorem copyGap_blk (n : Nat) : (copyGap n s).blk = s.blk := by unfold copyGap; split <;> rfl
@[simp] theorem copyGap_count (n : Nat) : (copyGap n s).count = s.count := by unfold copyGap; split <;> rfl
@[simp] theorem copyGap_idx (n : Nat) : (copyGap n s).idx = s.idx := by unfold copyGap; split <;> rfl
@[simp] theorem copyGap_notesCount (n : Nat) : (copyGap n s).notesCount = s.notesCount := by unfold copyGap; split <;> rfl
@[simp] theorem copyGap_notes (n : Nat) : (copyGap n s).notes = s.notes := by unfold copyGap; split <;> rfl
@[simp] theorem copyGap_notesValid (n : Nat) : (copyGap n s).notesValid = s.notesValid := by unfold copyGap; split <;> rfl
@[simp] theorem copyGap_voice (n : Nat) : (copyGap n s).voice = s.voice := by unfold copyGap; split <;> rfl
@[simp] theorem copyGap_seq (n : Nat) : (copyGap n s).seq = s.seq := by unfold copyGap; split <;> rfl
@[simp] theorem copyGap_ev (n : Nat) : (copyGap n s).ev = s.ev := by unfold copyGap; split <;> rfl
@[simp] theorem copyGap_mode (n : Nat) : (copyGap n s).mode = s.mode := by unfold copyGap; split <;> rfl
@[simp] theorem copyGap_tempoEn (n : Nat) : (copyGap n s).tempoEn = s.tempoEn := by unfold copyGap; split <;> rfl
@[simp] theorem copyGap_tempoOvr (n : Nat) : (copyGap n s).tempoOvr = s.tempoOvr := by unfold copyGap; split <;> rfl
@[simp] theorem copyGap_gapLen (n : Nat) : (copyGap n s).gapLen = s.gapLen := by unfold copyGap; split <;> rfl
@[simp] theorem copyGap_status (n : Nat) : (copyGap n s).status = s.status := by unfold copyGap; split <;> rfl
@[simp] theorem copyGap_fault (n : Nat) : (copyGap n s).fault = s.fault := by unfold copyGap; split <;> rfl
@[simp] theorem copyGap_finfo (n : Nat) : (copyGap n s).finfo = s.finfo := by unfold copyGap; split <;> rfl
@[simp] theorem copyGap_tape (n : Nat) : (copyGap n s).tape = s.tape := by unfold copyGap; split <;> rfl
@[simp] theorem copyGap_port (n : Nat) : (copyGap n s).port = s.port := by unfold copyGap; split <;> rfl
@[simp] theorem copyGap_level (n : Nat) : (copyGap n s).level = s.level := by unfold copyGap; split <;> rfl
@[simp] theorem copyGap_result (n : Nat) : (copyGap n s).result = s.result := by unfold copyGap; split <;> rfl
@[simp] theorem copyGap_wordGap (n : Nat) : (copyGap n s).wordGap = s.wordGap := by unfold copyGap; split <;> rfl
@[simp] theorem copyGap_streamEnded (n : Nat) : (copyGap n s).streamEnded = s.streamEnded := by unfold copyGap; split <;> rfl
@[simp] theorem copyGap_freeDraws (n : Nat) : (copyGap n s).freeDraws = s.freeDraws := by unfold copyGap; split <;> rfl
@[simp] theorem copyGap_driven (n : Nat) : (copyGap n s).driven = s.driven := by unfold copyGap; split <;> rfl

end Sys2Proof.Machine
end

