-- ==== Sys2Proof/Laws/Memory.lean ====
section
/-! SUPPORT. The Notes buffer as a memory: read after write, writes elsewhere, and the canonical form is kept. -/

namespace Sys2Proof.Machine

@[simp] theorem Memory.read_nil (i : Nat) : Memory.read [] i = none := rfl

theorem Memory.read_cons (a : Nat) (v : Word) (m : Memory) (i : Nat) :
    Memory.read ((a, v) :: m) i = if a = i then some v else Memory.read m i := rfl

/-- Reading back what was written. -/
theorem Memory.read_write_same (m : Memory) (i : Nat) (v : Word) : (m.write i v).read i = some v := by
  induction m with
  | nil => simp [Memory.write, Memory.read]
  | cons c m ih =>
    obtain ⟨a, u⟩ := c
    by_cases h1 : i < a
    · simp [Memory.write, Memory.read, h1]
    · by_cases h2 : i = a
      · simp [Memory.write, Memory.read, h2]
      · simp [Memory.write, Memory.read, h1, h2, Ne.symm h2, ih]

/-- A write leaves every other cell alone. -/
theorem Memory.read_write_other (m : Memory) {i k : Nat} (v : Word) (h : k ≠ i) : (m.write i v).read k = m.read k := by
  induction m with
  | nil => simp [Memory.write, Memory.read, Ne.symm h]
  | cons c m ih =>
    obtain ⟨a, u⟩ := c
    by_cases h1 : i < a
    · simp [Memory.write, Memory.read, h1, Ne.symm h]
    · by_cases h2 : i = a
      · subst h2
        simp [Memory.write, Memory.read, Ne.symm h]
      · simp [Memory.write, Memory.read, h1, h2, ih]

/-- The indices a write leaves listed are the old ones and the one written. -/
theorem Memory.mem_write_keys (m : Memory) (i : Nat) (v : Word) {k : Nat}
    (h : k ∈ (m.write i v).map Prod.fst) : k = i ∨ k ∈ m.map Prod.fst := by
  induction m with
  | nil => simpa [Memory.write] using h
  | cons c m ih =>
    obtain ⟨a, u⟩ := c
    unfold Memory.write at h
    split at h
    · simpa using h
    · split at h
      · simp at h ⊢; tauto
      · simp only [List.map_cons, List.mem_cons] at h ⊢
        rcases h with h | h
        · exact .inr (.inl h)
        · exact (ih h).imp_right .inr

/-- Every write keeps the canonical form. -/
theorem Memory.write_wf (m : Memory) (i : Nat) (v : Word) (h : m.wf) : (m.write i v).wf := by
  induction m with
  | nil => simp [Memory.write, Memory.wf]
  | cons c m ih =>
    obtain ⟨a, u⟩ := c
    rw [Memory.wf, List.map_cons, List.pairwise_cons] at h
    unfold Memory.write
    split
    · rename_i hlt
      rw [Memory.wf, List.map_cons, List.pairwise_cons, List.map_cons, List.pairwise_cons]
      refine ⟨fun k hk => ?_, h⟩
      rcases List.mem_cons.1 hk with rfl | hk
      · exact hlt
      · exact Nat.lt_trans hlt (h.1 k hk)
    · split
      · rename_i heq
        subst heq
        rw [Memory.wf, List.map_cons, List.pairwise_cons]
        exact h
      · rename_i hnlt hne
        rw [Memory.wf, List.map_cons, List.pairwise_cons]
        refine ⟨fun k hk => ?_, ih h.2⟩
        rcases Memory.mem_write_keys m i v hk with rfl | hk
        · simp only at *; omega
        · exact h.1 k hk

/-- The buffer cleared is in canonical form. -/
theorem Memory.wf_nil : Memory.wf [] := List.Pairwise.nil

/-- What `parseNotesBlock` clears leaves the buffer in canonical form. -/
theorem beginNotes_notes_wf (s : State) : (beginNotes s).notes.wf := Memory.wf_nil

/-- The buffer after reset is in canonical form. -/
theorem reset_notes_wf : State.reset.notes.wf := Memory.wf_nil

/-- A range that is read is defined cell by cell. -/
theorem Memory.readRange_ok {m : Memory} : ∀ {n i : Nat} {ws : List Word}, m.readRange i n = .ok ws →
    ws.length = n ∧ ∀ d, d < n → m.read (i + d) = ws[d]?
  | 0, i, ws, h => by
    simp only [Memory.readRange, Except.ok.injEq] at h
    subst h
    exact ⟨rfl, fun d hd => by omega⟩
  | n + 1, i, ws, h => by
    unfold Memory.readRange at h
    split at h
    · cases h
    · rename_i w hw
      split at h
      · rename_i ws' hr
        obtain ⟨hl, hc⟩ := Memory.readRange_ok hr
        simp only [Except.ok.injEq] at h
        subst h
        refine ⟨by simp [hl], fun d hd => ?_⟩
        cases d with
        | zero => simpa using hw
        | succ d =>
          have := hc d (by omega)
          simpa [Nat.add_assoc, Nat.add_comm 1 d] using this
      · cases h

end Sys2Proof.Machine
end

