-- ==== Sys2Proof/Laws/Outcome.lean ====
section
/-! SUPPORT. What the combinators of the operations can do, said once: `Act.bind`, `finish`, `accept`,
`acceptUnit`, `require`. -/

namespace Sys2Proof.Machine

variable {α β : Type}

@[simp] theorem bind_done (a : α) (s : State) (f : α → State → Act β) : (Act.done a s).bind f = f a s := rfl
@[simp] theorem bind_raised (s : State) (f : α → State → Act β) : (Act.raised s).bind f = .raised s := rfl
@[simp] theorem bind_stuck (r : Fault) (f : α → State → Act β) : (Act.stuck r).bind f = .stuck r := rfl

/-- A sequence completes only when both parts do. -/
theorem bind_eq_done {x : Act α} {f : α → State → Act β} {b : β} {t : State} :
    x.bind f = .done b t ↔ ∃ a s, x = .done a s ∧ f a s = .done b t := by
  cases x <;> simp

/-- A sequence faults where its first part does, or where its second does. -/
theorem bind_eq_raised {x : Act α} {f : α → State → Act β} {t : State} :
    x.bind f = .raised t ↔ x = .raised t ∨ ∃ a s, x = .done a s ∧ f a s = .raised t := by
  cases x <;> simp

/-- A sequence is stuck where one of its parts is. -/
theorem bind_eq_stuck {x : Act α} {f : α → State → Act β} {r : Fault} :
    x.bind f = .stuck r ↔ x = .stuck r ∨ ∃ a s, x = .done a s ∧ f a s = .stuck r := by
  cases x <;> simp

/-- Sequencing is associative. -/
theorem bind_assoc {γ : Type} (x : Act α) (f : α → State → Act β) (g : β → State → Act γ) :
    (x.bind f).bind g = x.bind fun a s => (f a s).bind g := by
  cases x <;> rfl

/-- `finish` answers a next state from a completed part or from a fault entered. -/
theorem finish_eq_next {f : α → Result} {x : Act α} {t : State} :
    finish f x = .next t ↔
      (∃ a s, x = .done a s ∧ t = setResult (f a) s) ∨ (∃ s, x = .raised s ∧ t = faultResult s) := by
  cases x <;> simp [finish, eq_comm]

/-- `finish` never refuses. -/
theorem finish_ne_refused {f : α → Result} {x : Act α} {r : Refusal} : finish f x ≠ .refused r := by
  cases x <;> simp [finish]

/-- `finish` stops the machine only where the part was stuck. -/
theorem finish_eq_fault {f : α → Result} {x : Act α} {r : Fault} : finish f x = .fault r ↔ x = .stuck r := by
  cases x <;> simp [finish]

/-- An operation is accepted only with no fault held and the run not ended (R52). -/
theorem accept_eq_next {s : State} {k : Out} {t : State} :
    accept s k = .next t ↔ s.fault = 0#4 ∧ s.status.done = false ∧ k = .next t := by
  unfold accept
  split <;> [split; skip] <;> simp_all

/-- A stop of an accepted operation is a stop of its body. -/
theorem accept_eq_fault {s : State} {k : Out} {r : Fault} :
    accept s k = .fault r ↔ s.fault = 0#4 ∧ s.status.done = false ∧ k = .fault r := by
  unfold accept
  split <;> [split; skip] <;> simp_all

/-- With no fault held and the run not ended, `accept` is its body. -/
theorem accept_of_ready {s : State} (k : Out) (hf : s.fault = 0#4) (hd : s.status.done = false) : accept s k = k := by
  simp [accept, hf, hd]

/-- With a fault held every operation guarded by `accept` is refused (R52). -/
theorem accept_of_faulted {s : State} (k : Out) (hf : s.fault ≠ 0#4) : accept s k = .refused .faulted := by
  simp [accept, hf]

/-- Within a run an operation is not remembered (R303; log 14). -/
theorem drive_of_running {s : State} (h : s.status.running = true) : drive s = s := by
  simp [drive, h]

/-- Outside a run it is (R303; log 14). -/
theorem drive_of_idle {s : State} (h : s.status.running = false) : drive s = { s with driven := true } := by
  simp [drive, h]

/-- A unit's operation that answers a next state was accepted, and its body ran on the state that remembers it. -/
theorem acceptUnit_eq_next {s : State} {k : State → Out} {t : State} :
    acceptUnit s k = .next t ↔ s.fault = 0#4 ∧ s.status.done = false ∧ k (drive s) = .next t := accept_eq_next

/-- A stop of a unit's operation is a stop of its body. -/
theorem acceptUnit_eq_fault {s : State} {k : State → Out} {r : Fault} :
    acceptUnit s k = .fault r ↔ s.fault = 0#4 ∧ s.status.done = false ∧ k (drive s) = .fault r := accept_eq_fault

/-- With no fault held and the run not ended, `acceptUnit` is its body. -/
theorem acceptUnit_of_ready {s : State} (k : State → Out) (hf : s.fault = 0#4) (hd : s.status.done = false) :
    acceptUnit s k = k (drive s) := accept_of_ready _ hf hd

/-- A precondition is met where the operation answers a next state. -/
theorem require_eq_next {c : Prop} [Decidable c] {r : Refusal} {k : Out} {t : State} :
    require c r k = .next t ↔ c ∧ k = .next t := by
  unfold require
  split <;> simp_all

/-- A stop of an operation under a precondition is a stop of its body. -/
theorem require_eq_fault {c : Prop} [Decidable c] {r : Refusal} {k : Out} {f : Fault} :
    require c r k = .fault f ↔ c ∧ k = .fault f := by
  unfold require
  split <;> simp_all

/-- A precondition that holds drops out. -/
theorem require_of {c : Prop} [Decidable c] (r : Refusal) (k : Out) (h : c) : require c r k = k := if_pos h

/-- A precondition that is broken refuses by its name (R14). -/
theorem require_of_not {c : Prop} [Decidable c] (r : Refusal) (k : Out) (h : ¬c) : require c r k = .refused r := if_neg h

/-- Outside `TWEAK` mode `copyWord` writes nothing (R225). -/
theorem copyWord_of_decode {s : State} (w : Word) (h : s.mode ≠ .tweak) : copyWord w s = s := if_neg h

/-- In `TWEAK` mode `copyWord` is TE's `writeWord` (R225). -/
theorem copyWord_of_tweak {s : State} (w : Word) (h : s.mode = .tweak) : copyWord w s = putWord w s := if_pos h

/-- Outside `TWEAK` mode `copyGap` writes nothing (R225). -/
theorem copyGap_of_decode {s : State} (n : Nat) (h : s.mode ≠ .tweak) : copyGap n s = s := if_neg h

/-- In `TWEAK` mode `copyGap` is TE's `writeGap` (R225). -/
theorem copyGap_of_tweak {s : State} (n : Nat) (h : s.mode = .tweak) : copyGap n s = putGap n s := if_pos h

end Sys2Proof.Machine
end

