-- ==== Sys2Proof/Laws/PerInstr.lean ====
section
/-! SUPPORT. Statements about every instruction as syntax, one lemma for each constructor. -/

namespace Sys2Proof.Laws

/-- The length of an encoding and its first byte, by where the instruction is decoded from: an operation begins with a byte
that is one of the 28 codes (R110), a frame is one byte (R90), a word is three frames (R93). -/
def EncodingShape.Statement (i : Instr) : Prop :=
  match i.source with
  | .port => ∃ op operands, encode i = op :: operands ∧ op.toNat < 28
  | .frame => ∃ f, encode i = [f]
  | .word _ => ∃ w, encode i = wordFrames w

theorem EncodingShape.coreReset : EncodingShape.Statement .coreReset := ⟨_, _, rfl, by decide⟩

theorem EncodingShape.setMode (mode : Mode) : EncodingShape.Statement (.setMode mode) := ⟨_, _, rfl, by decide⟩

theorem EncodingShape.setTempo (en : Bool) (t : Tempo15) : EncodingShape.Statement (.setTempo en t) :=
  ⟨_, _, rfl, by decide⟩

theorem EncodingShape.setGapLen (n : Nat) : EncodingShape.Statement (.setGapLen n) := ⟨_, _, rfl, by decide⟩

theorem EncodingShape.start : EncodingShape.Statement .start := ⟨_, _, rfl, by decide⟩

theorem EncodingShape.fuStep : EncodingShape.Statement .fuStep := ⟨_, _, rfl, by decide⟩

theorem EncodingShape.fuEnd : EncodingShape.Statement .fuEnd := ⟨_, _, rfl, by decide⟩

theorem EncodingShape.readWord : EncodingShape.Statement .readWord := ⟨_, _, rfl, by decide⟩

theorem EncodingShape.peekGap : EncodingShape.Statement .peekGap := ⟨_, _, rfl, by decide⟩

theorem EncodingShape.decodeFrame (f0 f1 f2 : Frame) : EncodingShape.Statement (.decodeFrame f0 f1 f2) :=
  ⟨_, _, rfl, by decide⟩

theorem EncodingShape.add (a b : Word) : EncodingShape.Statement (.add a b) := ⟨_, _, rfl, by decide⟩

theorem EncodingShape.verify (a b : Word) : EncodingShape.Statement (.verify a b) := ⟨_, _, rfl, by decide⟩

theorem EncodingShape.classify (w : Word) : EncodingShape.Statement (.classify w) := ⟨_, _, rfl, by decide⟩

theorem EncodingShape.decode (w : Word) : EncodingShape.Statement (.decode w) := ⟨_, _, rfl, by decide⟩

theorem EncodingShape.pitchInfo (p : BitVec 6) : EncodingShape.Statement (.pitchInfo p) := ⟨_, _, rfl, by decide⟩

theorem EncodingShape.articulationName (c : BitVec 4) : EncodingShape.Statement (.articulationName c) :=
  ⟨_, _, rfl, by decide⟩

theorem EncodingShape.decodeTempo (w : Word) : EncodingShape.Statement (.decodeTempo w) := ⟨_, _, rfl, by decide⟩

theorem EncodingShape.encodeTempo (n : Nat) : EncodingShape.Statement (.encodeTempo n) := ⟨_, _, rfl, by decide⟩

theorem EncodingShape.encodeNote (p : BitVec 6) (d : BitVec 7) (a : BitVec 4) (t : BitVec 1) (h : BitVec 2) :
    EncodingShape.Statement (.encodeNote p d a t h) :=
  ⟨_, _, rfl, by decide⟩

theorem EncodingShape.parseNotesBlock : EncodingShape.Statement .parseNotesBlock := ⟨_, _, rfl, by decide⟩

theorem EncodingShape.parseBarsBlock : EncodingShape.Statement .parseBarsBlock := ⟨_, _, rfl, by decide⟩

theorem EncodingShape.parseTempoSubstitution : EncodingShape.Statement .parseTempoSubstitution :=
  ⟨_, _, rfl, by decide⟩

theorem EncodingShape.barSlice (k : Word) : EncodingShape.Statement (.barSlice k) := ⟨_, _, rfl, by decide⟩

theorem EncodingShape.writeWord (w : Word) : EncodingShape.Statement (.writeWord w) := ⟨_, _, rfl, by decide⟩

theorem EncodingShape.writeGap (n : Nat) : EncodingShape.Statement (.writeGap n) := ⟨_, _, rfl, by decide⟩

theorem EncodingShape.encodeFrame (w : Word) : EncodingShape.Statement (.encodeFrame w) := ⟨_, _, rfl, by decide⟩

theorem EncodingShape.runDecoder : EncodingShape.Statement .runDecoder := ⟨_, _, rfl, by decide⟩

theorem EncodingShape.runTweak : EncodingShape.Statement .runTweak := ⟨_, _, rfl, by decide⟩

theorem EncodingShape.bin (x : BitVec 1) (d : Data6) : EncodingShape.Statement (.bin x d) := ⟨_, rfl⟩

theorem EncodingShape.blank (x : BitVec 7) : EncodingShape.Statement (.blank x) := ⟨_, rfl⟩

theorem EncodingShape.sep : EncodingShape.Statement .sep := ⟨_, rfl⟩

theorem EncodingShape.tempo (t : Tempo15) : EncodingShape.Statement (.tempo t) := ⟨_, rfl⟩

theorem EncodingShape.note (h : BitVec 2) (tr : BitVec 1) (am : BitVec 2) (q : BitVec 1) (pl : BitVec 5) (d : BitVec 7) :
    EncodingShape.Statement (.note h tr am q pl d) :=
  ⟨_, rfl⟩

theorem EncodingShape.count (n : Word) : EncodingShape.Statement (.count n) := ⟨_, rfl⟩

theorem EncodingShape.checksum (c : Word) : EncodingShape.Statement (.checksum c) := ⟨_, rfl⟩

theorem EncodingShape.index (k : Word) : EncodingShape.Statement (.index k) := ⟨_, rfl⟩

end Sys2Proof.Laws
end

