-- ==== Sys2Proof/Laws/Units.lean ====
section
/-! SUPPORT. One lemma for each shared operation of the units: everything it can do. -/

namespace Sys2Proof.Machine

/-! ### CS -/

/-- `add` in exact arithmetic: the low 18 bits of the sum plus its carry, which always fit (R151). -/
theorem csAdd_toNat (a b : Word) : (csAdd a b).toNat = (a.toNat + b.toNat) % 262144 + (a.toNat + b.toNat) / 262144 := by
  have ha := a.isLt
  have hb := b.isLt
  have hand : ∀ n : Nat, n &&& 0x3FFFF = n % 262144 := fun n => Nat.and_two_pow_sub_one_eq_mod n 18
  have hshift : ∀ n : Nat, n >>> 18 = n / 262144 := fun n => Nat.shiftRight_eq_div_pow n 18
  simp only [csAdd, hand, hshift, BitVec.toNat_ofNat]
  omega

/-- `verify` completes and changes nothing where the values are equal, and raises ChecksumError where they differ (R154). -/
theorem csVerify_eq (e c : Word) (j : Option Nat) (s : State) :
    csVerify e c j s = if e = c then .done () s
      else .raised (raise .checksumError { infoAt j s with expected := some e, computed := some c } s) := rfl

/-! ### FU -/

/-- A blank frame between words is counted (R132). -/
theorem fuFrame_blank {f : Frame} {s : State} (hf : isBinary f = false) (h0 : s.fcnt = 0#2) :
    fuFrame f s = .done none { s with gap := s.gap + 1, streamEnded := false } := by
  simp [fuFrame, hf, h0]

/-- A blank frame inside a word is MalformedInput (R132). -/
theorem fuFrame_inner_blank {f : Frame} {s : State} (hf : isBinary f = false) (h0 : s.fcnt ≠ 0#2) :
    fuFrame f s = .raised (raise .malformedInput { infoAt (some s.widx) s with sub := some 1 } s) := by
  simp [fuFrame, hf, h0]

/-- The first or second binary frame of a word is assembled (R132). -/
theorem fuFrame_part {f : Frame} {s : State} (hf : isBinary f = true) (h2 : s.fcnt ≠ 2#2) :
    fuFrame f s =
      .done none
        { s with acc := (s.acc <<< 6) ||| (data6 f).setWidth 18, fcnt := s.fcnt + 1#2, streamEnded := false } := by
  simp [fuFrame, hf, h2]

/-- The third binary frame completes the word (R132). -/
theorem fuFrame_last {f : Frame} {s : State} (hf : isBinary f = true) (h2 : s.fcnt = 2#2) :
    fuFrame f s =
      .done (some ((s.acc <<< 6) ||| (data6 f).setWidth 18, s.gap))
        { s with
          acc := 0#18, fcnt := 0#2, gap := 0, widx := s.widx + 1, wordGap := s.gap, streamEnded := false } := by
  simp [fuFrame, hf, h2]

/-- The registers FU writes are its own; everything else is as in `s`. -/
abbrev onlyFu (s t : State) : Prop :=
  t = { s with
        ipos := t.ipos, fcnt := t.fcnt, acc := t.acc, gap := t.gap, widx := t.widx, wordGap := t.wordGap,
        streamEnded := t.streamEnded }

theorem onlyFu_trans {s t u : State} (h1 : onlyFu s t) (h2 : onlyFu t u) : onlyFu s u := by
  unfold onlyFu at *
  rw [h2, h1]

/-- A frame step that completes writes registers of FU only (R132). -/
theorem fuFrame_onlyFu {f : Frame} {s t : State} {r : Option (Word × Nat)} (h : fuFrame f s = .done r t) :
    onlyFu s t := by
  unfold fuFrame at h
  split at h
  · simp only at h
    split at h <;> (injection h with _ h; subst h; rfl)
  · split at h
    · injection h with _ h; subst h; rfl
    · cases h

/-- `readWord` that completes writes registers of FU only (R133). -/
theorem readFrames_onlyFu : ∀ {fs : List Frame} {s t : State} {r : ReadResult},
    readFrames fs s = .done r t → onlyFu s t
  | [], s, t, r, h => by
    simp only [readFrames, fuAtEnd] at h
    split at h
    · injection h with _ h; subst h; rfl
    · cases h
  | f :: fs, s, t, r, h => by
    simp only [readFrames] at h
    obtain ⟨a, s1, h1, h2⟩ := bind_eq_done.1 h
    have hp : onlyFu s (passFrame s) := rfl
    have h3 := onlyFu_trans hp (fuFrame_onlyFu h1)
    cases a with
    | some p => injection h2 with _ h2; subst h2; exact h3
    | none => exact onlyFu_trans h3 (readFrames_onlyFu h2)

/-- `readBlockWord` that completes writes registers of FU only (R191). -/
theorem readBlockWord_onlyFu {s t : State} {r : BlockWord} (h : readBlockWord s = .done r t) : onlyFu s t := by
  obtain ⟨a, s1, h1, h2⟩ := bind_eq_done.1 h
  cases a with
  | word w g => injection h2 with _ h2; subst h2; exact readFrames_onlyFu h1
  | endOfStream g => cases h2

/-! ### NC -/

/-- The fields of a note word bit by bit (R99, R163). -/
theorem noteFields_bits (w : Word) (i : Nat) :
    (noteFields w).duration.getLsbD i = (decide (i < 7) && w.getLsbD i) ∧
    (noteFields w).pitch.getLsbD i = (decide (i < 6) && w.getLsbD (7 + i)) ∧
    (noteFields w).art.getLsbD i = (decide (i < 4) && w.getLsbD (12 + i)) ∧
    (noteFields w).triplet.getLsbD i = (decide (i < 1) && w.getLsbD (15 + i)) ∧
    (noteFields w).hi.getLsbD i = (decide (i < 2) && w.getLsbD (16 + i)) := by
  refine ⟨by simp [noteFields, noteLayout], by simp [noteFields, noteLayout], ?_, by simp [noteFields, noteLayout],
    by simp [noteFields, noteLayout]⟩
  have h : (noteFields w).art = w.extractLsb' 14 2 ++ w.extractLsb' 12 2 := rfl
  rw [h, BitVec.getLsbD_append]
  by_cases h2 : i < 2
  · have h4 : i < 4 := by omega
    simp [h2, h4]
  · have e : 14 + (i - 2) = 12 + i := by omega
    have e' : i - 2 < 2 ↔ i < 4 := by omega
    simp [h2, e, e']

/-- The word of a note's fields bit by bit: a bit two fields claim is set if either sets it (R169). -/
theorem insertFields_bits (n : Note) (i : Nat) :
    (insertFields n).getLsbD i =
      ((decide (16 ≤ i) && n.hi.getLsbD (i - 16)) || (decide (i = 15) && n.triplet.getLsbD 0) ||
        (decide (12 ≤ i) && n.art.getLsbD (i - 12)) || (decide (7 ≤ i) && n.pitch.getLsbD (i - 7)) ||
        n.duration.getLsbD i) := by
  by_cases h : i < 18
  · interval_cases i <;> simp [insertFields, noteLayout]
  · rw [BitVec.getLsbD_of_ge _ _ (by omega), BitVec.getLsbD_of_ge n.hi _ (by omega),
      BitVec.getLsbD_of_ge n.art _ (by omega), BitVec.getLsbD_of_ge n.pitch _ (by omega),
      BitVec.getLsbD_of_ge n.duration _ (by omega)]
    simp; omega

/-- The claims on bits 12 and 15 are all that fields can disagree on (R169, R170). -/
theorem sharedBitsAgree_iff (n : Note) :
    sharedBitsAgree n = true ↔ n.art.getLsbD 0 = n.pitch.getLsbD 5 ∧ n.art.getLsbD 3 = n.triplet.getLsbD 0 := by
  rw [sharedBitsAgree, decide_eq_true_eq]
  constructor
  · intro h
    have h0 := (noteFields_bits (insertFields n) 0).2.2.1
    have h3 := (noteFields_bits (insertFields n) 3).2.2.1
    have h5 := (noteFields_bits (insertFields n) 5).2.1
    have ht := (noteFields_bits (insertFields n) 0).2.2.2.1
    rw [h] at h0 h3 h5 ht
    exact ⟨h0.trans h5.symm, h3.trans ht.symm⟩
  · rintro ⟨h0, h3⟩
    have e : ∀ m : Note, m.pitch = n.pitch → m.duration = n.duration → m.art = n.art → m.triplet = n.triplet →
        m.hi = n.hi → m = n := by rintro ⟨⟩ rfl rfl rfl rfl rfl; rfl
    have g0 : n.art[0] = n.pitch[5] := by simpa using h0
    have g3 : n.art[3] = n.triplet[0] := by simpa using h3
    apply e <;> (apply BitVec.eq_of_getLsbD_eq; intro i hi)
    · rw [(noteFields_bits _ i).2.1, insertFields_bits]; interval_cases i <;> simp [g0]
    · rw [(noteFields_bits _ i).1, insertFields_bits]; interval_cases i <;> simp
    · rw [(noteFields_bits _ i).2.2.1, insertFields_bits]; interval_cases i <;> simp [g0, g3]
    · rw [(noteFields_bits _ i).2.2.2.1, insertFields_bits]; interval_cases i; simp [g3]
    · rw [(noteFields_bits _ i).2.2.2.2, insertFields_bits]; interval_cases i <;> simp

/-- `articulationName` completes and changes nothing where the code has a name, and raises InvalidArticulation where it has
none (R166). -/
theorem nameArticulation_eq (c : BitVec 4) (j : Option Nat) (w : Option Word) (s : State) :
    nameArticulation c j w s =
      match articulation c with
      | some a => .done a s
      | none => .raised (raise .invalidArticulation { infoAt j s with code := some c, word := w } s) := rfl

/-! ### BP -/

/-- A content word of a Notes block that completes is reported and nothing else is changed by its interpretation (R193). -/
theorem noteContent_done {w wOut : Word} {i j : Nat} {s t : State} (h : noteContent w i j s = .done wOut t) :
    ∃ e, t = emit e s := by
  unfold noteContent at h
  split at h
  · injection h with _ h; exact ⟨_, h.symm⟩
  · injection h with _ h; exact ⟨_, h.symm⟩
  · obtain ⟨a, s1, h1, h2⟩ := bind_eq_done.1 h
    rw [nameArticulation_eq] at h1
    split at h1
    · injection h1 with _ h1; subst h1
      injection h2 with _ h2; exact ⟨_, h2.symm⟩
    · cases h1

/-- A content word of a Bars block that completes is reported and nothing else is changed (R195). -/
theorem barContent_done {w : Word} {i j : Nat} {s t : State} (h : barContent w i j s = .done () t) :
    ∃ e, t = emit e s := by
  unfold barContent at h
  split at h
  · injection h with _ h; exact ⟨_, h.symm⟩
  · split at h
    · cases h
    · split at h
      · injection h with _ h; exact ⟨_, h.symm⟩
      · cases h

/-- A `NOTES` read that does not exist is the only way a Bars content word is stuck (R66). -/
theorem barContent_stuck {w : Word} {i j : Nat} {s : State} {f : Fault} (h : barContent w i j s = .stuck f) :
    barSlice w s = .error f := by
  unfold barContent at h
  split at h
  · cases h
  · split at h
    · cases h
    · split at h
      · cases h
      · rename_i f' hf
        injection h with h; subst h; exact hf

/-! ### The host sequence -/

/-- The pass of the last voice never goes on to another (R232). -/
theorem afterBars_lastVoice {p : Bool × Nat} {s t : State} (hv : s.voice = lastVoice) : afterBars p s ≠ .done none t := by
  unfold afterBars
  split
  · simp
  · intro h
    obtain ⟨a, s1, _, h2⟩ := bind_eq_done.1 h
    simp at h2

end Sys2Proof.Machine
end

