-- ==== Sys2Proof/Tests/Slice0.lean ====
section
/-! SUPPORT. The model's own tests: well-formedness, decoding of words written out from 30_encoding.md, one step of each
instruction on the spec's own examples, and for every statement with hypotheses a state that meets them. -/

namespace Sys2Proof.Tests

open Sys2Proof.Machine

-- one theorem after the other: in parallel these theorems take more memory than the check allows
set_option Elab.async false

/-! ### Helpers -/

/-- The reset state with a tape. -/
def onTape (fs : List Frame) : State := { State.reset with tape := fs }

/-- The reset state with a run in progress on a tape. -/
def inRun (fs : List Frame) : State := setRunning (onTape fs)

/-- A run in the given sequencer state. -/
def inSeq (q : Seq) (fs : List Frame) : State := { inRun fs with seq := q }

/-- A run before a Bars block, with a verified Notes block. -/
def beforeBars (ns : List Word) (fs : List Frame) : State :=
  { inSeq .expectGap1 fs with
    notesValid := true, notesCount := BitVec.ofNat 18 ns.length, notes := cellsFrom 0 ns, blk := .notes }

/-- A run in a Notes block with one content word to come. -/
def inNotes : State := { inSeq .expectNotesBlock [] with blk := .notes, count := 1#18, notesCount := 1#18, widx := 1 }

/-- A run in a Bars block over the given Notes content, with one content word to come. -/
def inBars (ns : List Word) : State :=
  { inSeq .expectBarsBlock [] with
    blk := .bars, count := 1#18, notesCount := BitVec.ofNat 18 ns.length, notes := cellsFrom 0 ns, notesValid := true,
    widx := 5 }

/-- The outcome is a next state with the property. -/
def nextIs (o : Out) (p : State → Bool) : Bool :=
  match o with
  | .next t => p t
  | .fault _ => false
  | .refused _ => false

/-- The outcome is the refusal. -/
def refusedAs (o : Out) (r : Refusal) : Bool :=
  match o with
  | .next _ => false
  | .fault _ => false
  | .refused q => q = r

theorem nextIs_exists {o : Out} {p : State → Bool} (h : nextIs o p = true) : ∃ t, o = .next t ∧ p t = true := by
  cases o with
  | next t => exact ⟨t, rfl, h⟩
  | fault _ => cases h
  | refused _ => cases h

/-- A word on a tape after `g` blank frames, in canonical frames. -/
def plain (g : Nat) (w : Word) : InkedWord := { blanks := List.replicate g 0#7, x0 := 0#1, x1 := 0#1, x2 := 0#1, w := w }

/-- A block after `g` blank frames with its own count and checksum. -/
def block (g : Nat) (ws : List Word) : InkedBlock :=
  { count := plain g (BitVec.ofNat 18 ws.length), content := ws.map (plain 0), check := plain 0 (blockChecksum ws) }

/-- The voice of 30_encoding.md R114 after `g` blank frames. -/
def voice114 (g : Nat) : InkedVoice := { notes := block g [0o700257#18, 0o3420#18], bars := block 1 [1#18] }

/-- The tape of R114, frame by frame as R114 prints it. -/
def tape114 : List Frame :=
  [0o000, 0o000, 0o200, 0o200, 0o202, 0o270, 0o202, 0o257, 0o200, 0o234, 0o220, 0o270, 0o236, 0o277, 0o000,
   0o200, 0o200, 0o201, 0o200, 0o200, 0o201, 0o200, 0o200, 0o201, 0o000, 0o000, 0o000]

/-! ### Well-formedness -/

theorem test_wellFormed_refuses_separator_as_note : (Instr.note 3#2 0#1 0#2 0#1 0#5 0#7).wellFormed = false := by decide
theorem test_wellFormed_refuses_tempo_word_as_note : (Instr.note 3#2 1#1 0#2 0#1 0#5 5#7).wellFormed = false := by decide
theorem test_wellFormed_refuses_separator_as_index : (Instr.index 0o600000#18).wellFormed = false := by decide
theorem test_wellFormed_accepts_0600001 : (Instr.note 3#2 0#1 0#2 0#1 0#5 1#7).wellFormed = true := by decide
theorem test_wellFormed_accepts_last_index : (Instr.index 0o777777#18).wellFormed = true := by decide

/-! ### Decoding, each from the encoding the spec gives (R110, R90, R94 to R99; operand bytes as log 1 lays them out) -/

theorem test_decode_coreReset : decode .port [0b00000000#8] = .ok (.coreReset, []) := by decide
theorem test_decode_setMode : decode .port [0b00000001#8, 1#8] = .ok (.setMode .tweak, []) := by decide
theorem test_decode_setTempo :
    decode .port [0b00000010#8, 1#8, 0x64#8, 0x00#8] = .ok (.setTempo true 0o144#15, []) := by decide
theorem test_decode_setGapLen : decode .port [0b00000011#8, 0xAC#8, 0x02#8] = .ok (.setGapLen 300, []) := by decide
theorem test_decode_start : decode .port [0b00000100#8] = .ok (.start, []) := by decide
theorem test_decode_fuStep : decode .port [0b00000101#8] = .ok (.fuStep, []) := by decide
theorem test_decode_fuEnd : decode .port [0b00000110#8] = .ok (.fuEnd, []) := by decide
theorem test_decode_readWord : decode .port [0b00000111#8] = .ok (.readWord, []) := by decide
theorem test_decode_peekGap : decode .port [0b00001000#8] = .ok (.peekGap, []) := by decide
theorem test_decode_decodeFrame :
    decode .port [0b00001001#8, 0o270#8, 0o202#8, 0o257#8] = .ok (.decodeFrame 0o270#8 0o202#8 0o257#8, []) := by decide
theorem test_decode_add :
    decode .port [0b00001010#8, 0x01#8, 0x02#8, 0x03#8, 0xFF#8, 0x00#8, 0x00#8] =
      .ok (.add 0x30201#18 0xFF#18, []) := by decide
theorem test_decode_verify :
    decode .port [0b00001011#8, 0x05#8, 0x00#8, 0x00#8, 0x06#8, 0x00#8, 0x00#8] = .ok (.verify 5#18 6#18, []) := by decide
theorem test_decode_classify :
    decode .port [0b00001100#8, 0x00#8, 0x00#8, 0x03#8] = .ok (.classify 0o600000#18, []) := by decide
theorem test_decode_decode :
    decode .port [0b00001101#8, 0x10#8, 0x07#8, 0x00#8] = .ok (.decode 0o3420#18, []) := by decide
theorem test_decode_pitchInfo : decode .port [0b00001110#8, 21#8] = .ok (.pitchInfo 21#6, []) := by decide
theorem test_decode_articulationName : decode .port [0b00001111#8, 8#8] = .ok (.articulationName 8#4, []) := by decide
theorem test_decode_decodeTempo :
    decode .port [0b00010000#8, 0xAF#8, 0x80#8, 0x03#8] = .ok (.decodeTempo 0o700257#18, []) := by decide
theorem test_decode_encodeTempo : decode .port [0b00010001#8, 0x64#8] = .ok (.encodeTempo 100, []) := by decide
theorem test_decode_encodeNote :
    decode .port [0b00010010#8, 21#8, 8#8, 4#8, 0#8, 2#8] = .ok (.encodeNote 21#6 8#7 4#4 0#1 2#2, []) := by decide
theorem test_decode_parseNotesBlock : decode .port [0b00010011#8] = .ok (.parseNotesBlock, []) := by decide
theorem test_decode_parseBarsBlock : decode .port [0b00010100#8] = .ok (.parseBarsBlock, []) := by decide
theorem test_decode_parseTempoSubstitution : decode .port [0b00010101#8] = .ok (.parseTempoSubstitution, []) := by decide
theorem test_decode_barSlice : decode .port [0b00010110#8, 4#8, 0#8, 0#8] = .ok (.barSlice 4#18, []) := by decide
theorem test_decode_writeWord : decode .port [0b00010111#8, 5#8, 0#8, 0#8] = .ok (.writeWord 5#18, []) := by decide
theorem test_decode_writeGap : decode .port [0b00011000#8, 18#8, 7#8] = .ok (.writeGap 18, [7#8]) := by decide
theorem test_decode_encodeFrame :
    decode .port [0b00011001#8, 0xFF#8, 0xFF#8, 0x03#8] = .ok (.encodeFrame 0o777777#18, []) := by decide
theorem test_decode_runDecoder : decode .port [0b00011010#8] = .ok (.runDecoder, []) := by decide
theorem test_decode_runTweak : decode .port [0b00011011#8] = .ok (.runTweak, []) := by decide
theorem test_decode_refuses_code_28 : decode .port [0b00011100#8] = .error .unassignedCode := by decide
theorem test_decode_refuses_code_31 : decode .port [0b00011111#8] = .error .unassignedCode := by decide
theorem test_decode_refuses_high_bits : decode .port [0b00100000#8] = .error .notAnOperationByte := by decide
theorem test_decode_refuses_cut_operands : decode .port [0b00010111#8, 5#8, 0#8] = .error .truncatedOperands := by decide
theorem test_decode_bin : decode .frame [0b11000011#8] = .ok (.bin 1#1 3#6, []) := by decide
theorem test_decode_blank : decode .frame [0b01111111#8] = .ok (.blank 0b1111111#7, []) := by decide
theorem test_decode_sep :
    decode (.word .notesContent) [0b10110000#8, 0b10000000#8, 0b10000000#8] = .ok (.sep, []) := by decide
theorem test_decode_tempo :
    decode (.word .notesContent) [0b10111000#8, 0b10000010#8, 0b10101111#8] = .ok (.tempo 0o257#15, []) := by decide
theorem test_decode_note :
    decode (.word .notesContent) [0b10001000#8, 0b10010010#8, 0b10001000#8] =
      .ok (.note 0#2 1#1 0#2 0#1 0b01001#5 8#7, []) := by decide
theorem test_decode_count :
    decode (.word .notesCount) [0b10110000#8, 0b10000000#8, 0b10000000#8] = .ok (.count 0o600000#18, []) := by decide
theorem test_decode_checksum :
    decode (.word .barsChecksum) [0b10111000#8, 0b10000000#8, 0b10000000#8] = .ok (.checksum 0o700000#18, []) := by decide
theorem test_decode_index :
    decode (.word .barsContent) [0b10111000#8, 0b10000000#8, 0b11000001#8] = .ok (.index 0o700001#18, []) := by decide
theorem test_decode_bar_separator :
    decode (.word .barsContent) [0b10110000#8, 0b10000000#8, 0b10000000#8] = .ok (.sep, []) := by decide
theorem test_decode_refuses_inner_blank :
    decode (.word .notesContent) [0b10110000#8, 0b00000000#8, 0b10000000#8] = .error .notAWord := by decide

/-! ### Encoding -/

theorem test_encode_tempo : encode (.tempo 0o257#15) = [0o270#8, 0o202#8, 0o257#8] := by decide
theorem test_encode_note : encode (.note 0#2 1#1 0#2 0#1 0b01001#5 8#7) = [0o210#8, 0o222#8, 0o210#8] := by decide
theorem test_encode_sep : encode .sep = [0o260#8, 0o200#8, 0o200#8] := by decide
theorem test_encode_setGapLen : encode (.setGapLen 300) = [3#8, 0xAC#8, 0x02#8] := by decide
theorem test_encode_setTempo : encode (.setTempo true 0o40144#15) = [2#8, 1#8, 0x64#8, 0x40#8] := by decide

/-! ### Words of spec/opcode_table.json -/

theorem test_table_writeWord : decodeTableWord 8 0x17 = some (.writeWord 0#18) := by decide
theorem test_table_bin : decodeTableWord 8 0x80 = some (.bin 0#1 0#6) := by decide
theorem test_table_sep : decodeTableWord 24 0x30000 = some .sep := by decide
theorem test_table_tempo : decodeTableWord 24 0x38000 = some (.tempo 0#15) := by decide
theorem test_table_note : decodeTableWord 24 0 = some (.note 0#2 0#1 0#2 0#1 0#5 0#7) := by decide
theorem test_table_unassigned : decodeTableWord 8 0x1C = none := by decide
theorem test_fetch_writes_table_operation :
    refusedAs (step (State.reset.withFetchWord 8 0x17)) .decodeMode = true := by decide
theorem test_fetch_runs_table_frame :
    nextIs (step (State.reset.withFetchWord 8 0x85)) (fun t => t.acc = 5#18 && t.fcnt = 1#2 && t.ipos = 1) = true := by
  decide
theorem test_fetch_runs_table_word :
    nextIs (step (State.reset.withFetchWord 24 0x38001))
      (fun t => t.ev = [.tempo 1#3 0 0x38001#18 1#15 (some 11436) 0x38001#18] && t.idx = 1) = true := by decide +kernel

/-! ### One step of each instruction -/

/-- V8.6: `coreReset` clears a fault. -/
theorem test_coreReset_clears_fault :
    nextIs (exec .coreReset { State.reset with fault := 2#4, seq := .faulted, ipos := 7, gapLen := 2 })
      (fun t => t = State.reset) = true := by decide
theorem test_setMode : nextIs (exec (.setMode .tweak) State.reset) (fun t => t.mode = .tweak) = true := by decide
/-- V8.7. -/
theorem test_setMode_after_done :
    refusedAs (exec (.setMode .tweak) { State.reset with seq := .endOfTape, status := ⟨false, true, false⟩ }) .runEnded =
      true := by decide
theorem test_setTempo :
    nextIs (exec (.setTempo true 0o144#15) State.reset) (fun t => t.tempoEn && t.tempoOvr = 0o144#15) = true := by decide
theorem test_setGapLen : nextIs (exec (.setGapLen 0) State.reset) (fun t => t.gapLen = 0) = true := by decide
/-- R232, R241, P5: the tape of R114, decoded. -/
theorem test_start_decodes_tape114 :
    nextIs (exec .start (onTape tape114))
      (fun t => t.status = ⟨false, true, false⟩ && t.voice = 1#3 && t.widx = 7 && t.ipos = 27 && t.out = [] &&
        t.ev.length = 11 && t.result = .runDone 1#3) = true := by decide +kernel
/-- T4g: the empty tape. -/
theorem test_start_on_empty_tape :
    nextIs (exec .start State.reset)
      (fun t => t.fault = 6#4 && t.finfo = { widx := some 0, blk := some .notes, voice := some 1#3, gap := some 0 }) =
      true := by decide +kernel
/-- The example of R132. -/
theorem test_fuStep_completes_word :
    nextIs (exec .fuStep { onTape [0o205#8] with fcnt := 2#2, gap := 2 })
      (fun t => t.result = .word 5#18 2 && t.fcnt = 0#2 && t.gap = 0 && t.widx = 1 && t.ipos = 1) = true := by decide
/-- V2.25. -/
theorem test_fuStep_inner_blank :
    nextIs (exec .fuStep { onTape [0o200#8, 0o000#8] with ipos := 1, fcnt := 1#2 })
      (fun t => t.fault = 1#4 && t.finfo.sub = some 1 && t.finfo.widx = some 0) = true := by decide
/-- The examples of R134. -/
theorem test_fuEnd :
    nextIs (exec .fuEnd { onTape [0#8, 0#8, 0#8] with ipos := 3, gap := 3 }) (fun t => t.result = .endOfStream 3) = true := by
  decide
theorem test_fuEnd_inside_word :
    nextIs (exec .fuEnd { onTape [0o200#8, 0o200#8] with ipos := 2, fcnt := 2#2 })
      (fun t => t.fault = 1#4 && t.finfo.sub = some 2) = true := by decide
/-- V2.22. -/
theorem test_readWord_ignores_bits :
    nextIs (exec .readWord (onTape [0o100#8, 0o177#8, 0o300#8, 0o334#8, 0o320#8]))
      (fun t => t.result = .word 0o3420#18 2 && t.ipos = 5 && t.widx = 1) = true := by decide
/-- V2.28. -/
theorem test_readWord_cut :
    nextIs (exec .readWord (onTape [0o000#8, 0o200#8])) (fun t => t.fault = 1#4 && t.finfo.sub = some 2) = true := by decide
/-- V2.31, V2.32. -/
theorem test_peekGap_truncated :
    nextIs (exec .peekGap (onTape [0o000#8, 0o000#8, 0o200#8])) (fun t => t.result = .peek true 2 && t.ipos = 0) = true := by
  decide
theorem test_peekGap_end :
    nextIs (exec .peekGap (onTape [0o000#8, 0o000#8, 0o000#8])) (fun t => t.result = .peek false 3) = true := by decide
/-- V2.12 with bit 6 set. -/
theorem test_decodeFrame :
    nextIs (exec (.decodeFrame 0o301#8 0o302#8 0o303#8) State.reset)
      (fun t => t.result = .maybeWord (some 0o10203#18)) = true := by decide
/-- V3.9, V3.10. -/
theorem test_add_carry :
    nextIs (exec (.add 0o777776#18 2#18) State.reset) (fun t => t.result = .plainWord 1#18) = true := by decide
theorem test_add_minus_zero :
    nextIs (exec (.add 0o123456#18 0o654321#18) State.reset) (fun t => t.result = .plainWord 0o777777#18) = true := by decide
/-- V3.17. -/
theorem test_verify_two_zeros :
    nextIs (exec (.verify 0#18 0o777777#18) State.reset)
      (fun t => t.fault = 2#4 && t.finfo.widx.isSome && t.finfo.expected = some 0#18 &&
        t.finfo.computed = some 0o777777#18) = true := by decide
theorem test_verify_equal : nextIs (exec (.verify 9#18 9#18) State.reset) (fun t => t.fault = 0#4) = true := by decide
/-- The corner cases of R161. -/
theorem test_classify_0677777 :
    nextIs (exec (.classify 0o677777#18) State.reset) (fun t => t.result = .wordClass .note) = true := by decide
theorem test_classify_0700000 :
    nextIs (exec (.classify 0o700000#18) State.reset) (fun t => t.result = .wordClass .tempo) = true := by decide
/-- The second example of R163, with R164 and R165. -/
theorem test_decode_operation :
    nextIs (exec (.decode 0o102210#18) State.reset)
      (fun t => t.result =
        .note { pitch := 9#6, duration := 8#7, art := 8#4, triplet := 1#1, hi := 0#2 } (some 12) (.pitched 7 1 7)) =
      true := by decide
/-- R164: a zero divisor. -/
theorem test_decode_operation_zero_duration :
    nextIs (exec (.decode 0o200#18) State.reset)
      (fun t => t.result =
        .note { pitch := 1#6, duration := 0#7, art := 0#4, triplet := 0#1, hi := 0#2 } none (.rest 1#6)) = true := by decide
/-- The corner cases of R165. -/
theorem test_pitchInfo_63 :
    nextIs (exec (.pitchInfo 63#6) State.reset) (fun t => t.result = .pitchInfo (.pitched 61 6 1)) = true := by decide
theorem test_pitchInfo_13 :
    nextIs (exec (.pitchInfo 13#6) State.reset) (fun t => t.result = .pitchInfo (.pitched 11 1 11)) = true := by decide
/-- The examples of R166. -/
theorem test_articulationName_4 :
    nextIs (exec (.articulationName 4#4) State.reset) (fun t => t.result = .articulation .staccato) = true := by decide
theorem test_articulationName_3 :
    nextIs (exec (.articulationName 3#4) State.reset)
      (fun t => t.fault = 5#4 && t.finfo.widx.isSome && t.finfo.word.isSome && t.finfo.code = some 3#4) = true := by decide
/-- The examples of R167. -/
theorem test_decodeTempo :
    nextIs (exec (.decodeTempo 0o700257#18) State.reset) (fun t => t.result = .bpm (some 65)) = true := by decide
theorem test_decodeTempo_zero :
    nextIs (exec (.decodeTempo 0o700000#18) State.reset) (fun t => t.result = .bpm none) = true := by decide
/-- The corner case of R168. -/
theorem test_encodeTempo_masks :
    nextIs (exec (.encodeTempo 0o100001) State.reset) (fun t => t.result = .plainWord 0o700001#18) = true := by decide
/-- The examples of R169. -/
theorem test_encodeNote :
    nextIs (exec (.encodeNote 21#6 8#7 4#4 0#1 0#2) State.reset)
      (fun t => t.result = .maybeWord (some 0o45210#18)) = true := by decide
theorem test_encodeNote_disagreement :
    nextIs (exec (.encodeNote 33#6 16#7 0#4 0#1 0#2) State.reset) (fun t => t.result = .maybeWord none) = true := by decide
/-- The example of R192. -/
theorem test_parseNotesBlock :
    nextIs (exec .parseNotesBlock (inRun tape114))
      (fun t => t.ipos = 14 && t.widx = 4 && t.notesCount = 2#18 && t.notes = [(0, 0o700257#18), (1, 0o3420#18)] &&
        t.notesValid && t.seq = .expectGap1 && t.sumIn = 0o703677#18 && t.ev.length = 5) = true := by decide +kernel
/-- T4i. -/
theorem test_parseNotesBlock_illegal_note :
    nextIs (exec .parseNotesBlock (inRun [0o200, 0o200, 0o201, 0o203, 0o200, 0o220, 0o203, 0o200, 0o220]))
      (fun t => t.fault = 5#4 && t.finfo =
        { widx := some 1, blk := some .notes, voice := some 1#3, code := some 3#4, word := some 0o30020#18 }) = true := by
  decide +kernel
/-- The example of R194. -/
theorem test_parseBarsBlock :
    nextIs (exec .parseBarsBlock { beforeBars [0o700257#18, 0o3420#18] tape114 with ipos := 14, widx := 4 })
      (fun t => t.ipos = 24 && t.widx = 7 && t.notesValid = false && t.seq = .expectGap2 && t.result = .peek false 3 &&
        t.ev.contains (.bar 1#3 0 1#18 [0o3420#18])) = true := by decide +kernel
/-- T4c: no gap. -/
theorem test_parseBarsBlock_without_gap :
    nextIs (exec .parseBarsBlock { beforeBars [0o3420#18] [0o200, 0o200, 0o201] with widx := 7 })
      (fun t => t.fault = 3#4 && t.finfo =
        { widx := some 7, blk := some .bars, voice := some 1#3, sub := some 1, gap := some 0 }) = true := by decide +kernel
/-- P5: the Notes block of R114 under an override of 0144. -/
theorem test_parseTempoSubstitution :
    nextIs (exec .parseTempoSubstitution
        { inRun tape114 with mode := .tweak, tempoEn := true, tempoOvr := 0o144#15 })
      (fun t => t.out = [0o000, 0o000, 0o200, 0o200, 0o202, 0o270, 0o201, 0o244, 0o200, 0o234, 0o220, 0o270, 0o235,
          0o264] && t.sumOut = 0o703564#18 && t.notes = [(0, 0o700257#18), (1, 0o3420#18)]) = true := by decide +kernel
theorem test_parseTempoSubstitution_in_decode_mode :
    refusedAs (exec .parseTempoSubstitution (inRun tape114)) .notTweak = true := by decide
/-- The examples of R196. -/
theorem test_barSlice :
    nextIs (exec (.barSlice 1#18)
        (beforeBars [0o700257#18, 0o3420#18, 0o45210#18, 0o600000#18, 0o20040#18] []))
      (fun t => t.result = .words [0o3420#18, 0o45210#18]) = true := by decide +kernel
theorem test_barSlice_at_separator :
    nextIs (exec (.barSlice 3#18)
        (beforeBars [0o700257#18, 0o3420#18, 0o45210#18, 0o600000#18, 0o20040#18] []))
      (fun t => t.result = .words []) = true := by decide +kernel
/-- V2.40, V2.44. -/
theorem test_writeWord :
    nextIs (exec (.writeWord 0o700144#18) { State.reset with mode := .tweak })
      (fun t => t.out = [0o270, 0o201, 0o244] && t.opos = 3) = true := by decide
theorem test_writeWord_in_decode_mode : refusedAs (exec (.writeWord 5#18) State.reset) .decodeMode = true := by decide
/-- The example of R223. -/
theorem test_writeGap :
    nextIs (exec (.writeGap 3) { State.reset with mode := .tweak }) (fun t => t.out = [0, 0, 0] && t.opos = 3) = true := by
  decide
/-- V2.2. -/
theorem test_encodeFrame :
    nextIs (exec (.encodeFrame 0o777777#18) State.reset) (fun t => t.result = .frames 0o277#8 0o277#8 0o277#8) = true := by
  decide
/-- R240: the mode is set first. -/
theorem test_runDecoder :
    nextIs (exec .runDecoder { onTape tape114 with mode := .tweak })
      (fun t => t.mode = .decode && t.out = [] && t.status.done && !t.status.outValid) = true := by decide +kernel
/-- R241's example. -/
theorem test_runTweak :
    nextIs (exec .runTweak { onTape tape114 with tempoEn := true, tempoOvr := 0o144#15 })
      (fun t => t.status.outValid && t.out =
        [0o000, 0o000, 0o200, 0o200, 0o202, 0o270, 0o201, 0o244, 0o200, 0o234, 0o220, 0o270, 0o235, 0o264, 0o000,
         0o200, 0o200, 0o201, 0o200, 0o200, 0o201, 0o200, 0o200, 0o201, 0o000, 0o000, 0o000]) = true := by decide +kernel
/-- R132, R90. -/
theorem test_bin :
    nextIs (exec (.bin 1#1 5#6) { State.reset with fcnt := 1#2, acc := 3#18 })
      (fun t => t.acc = 0o305#18 && t.fcnt = 2#2) = true := by decide
theorem test_blank : nextIs (exec (.blank 0o177#7) State.reset) (fun t => t.gap = 1) = true := by decide
/-- R193, R195. -/
theorem test_sep_in_notes :
    nextIs (exec .sep inNotes) (fun t => t.ev = [.sep 1#3 0] && t.sumIn = 0o600000#18 && t.notes = [(0, 0o600000#18)]) =
      true := by decide +kernel
theorem test_sep_in_bars :
    nextIs (exec .sep (inBars [])) (fun t => t.ev = [.barSep 1#3 0] && t.idx = 1) = true := by decide +kernel
/-- The example of R197. -/
theorem test_tempo_with_override :
    nextIs (exec (.tempo 0o257#15) { inNotes with mode := .tweak, tempoEn := true, tempoOvr := 100#15 })
      (fun t => t.out = [0o270, 0o201, 0o244] && t.sumIn = 0o700257#18 && t.sumOut = 0o700144#18) = true := by
  decide +kernel
/-- The note word 0045210 of V4. -/
theorem test_note :
    nextIs (exec (.note 0#2 0#1 0b10#2 0#1 0b10101#5 8#7) inNotes)
      (fun t => t.ev = [.note 1#3 0 0o45210#18 { pitch := 21#6, duration := 8#7, art := 4#4, triplet := 0#1, hi := 0#2 }
        .staccato (some 8) (.pitched 19 2 7)]) = true := by decide +kernel
/-- The example of R193. -/
theorem test_note_illegal :
    nextIs (exec (.note 0#2 0#1 0b01#2 1#1 0#5 0o20#7) { inNotes with widx := 2 })
      (fun t => t.fault = 5#4 && t.finfo.widx = some 1 && t.finfo.word = some 0o30020#18) = true := by decide +kernel
/-- R192: the first count word reports the leader gap. -/
theorem test_count_first :
    nextIs (exec (.count 2#18) { inRun [] with wordGap := 2, widx := 1 })
      (fun t => t.ev = [.gap .leader 2, .count 1#3 .notes 2#18] && t.seq = .expectNotesBlock && t.count = 2#18) = true := by
  decide
theorem test_count_of_bars_without_gap :
    nextIs (exec (.count 2#18) { beforeBars [] [] with widx := 8 })
      (fun t => t.fault = 3#4 && t.finfo.widx = some 7) = true := by decide
/-- R203: an empty block's checksum is 0, not 0777777. -/
theorem test_checksum_of_empty_notes :
    nextIs (exec (.checksum 0#18) { inNotes with count := 0#18 }) (fun t => t.seq = .expectGap1 && t.notesValid) = true := by
  decide
theorem test_checksum_minus_zero :
    nextIs (exec (.checksum 0o777777#18) { inNotes with count := 0#18 }) (fun t => t.fault = 2#4) = true := by decide
/-- The example of R195, 5 out of 5. -/
theorem test_index_out_of_range :
    nextIs (exec (.index 5#18) { inBars [1#18, 2#18, 3#18, 4#18, 5#18] with widx := 11 })
      (fun t => t.fault = 4#4 && t.finfo = { widx := some 10, blk := some .bars, voice := some 1#3, index := some 5#18,
                                             notesCount := some 5#18 }) = true := by decide +kernel
theorem test_index_last :
    nextIs (exec (.index 4#18) (inBars [1#18, 2#18, 3#18, 4#18, 5#18])) (fun t => t.ev = [.bar 1#3 0 4#18 [5#18]]) =
      true := by decide +kernel

/-! ### For each statement with hypotheses, a state and operands that meet them, clause by clause -/

/-- A state after a fault. -/
def faulted : State := { State.reset with fault := 2#4, seq := .faulted, finfo := { widx := some 3 } }

/-- A state after a completed run. -/
def ended : State := { State.reset with seq := .endOfTape, status := ⟨false, true, false⟩ }

theorem witness_configuration_before_a_run : Ready State.reset ∧ State.reset.status.running = false := by decide
theorem witness_configuration_during_a_run : Ready (inRun []) ∧ (inRun []).status.running = true := by decide
theorem witness_last_configuration :
    (∀ i ∈ [Instr.setGapLen 2, .setTempo true 100#15, .setMode .tweak, .setTempo false 0#15], configures i = true) ∧
      Ready State.reset ∧ State.reset.status.running = false := by decide

theorem witness_fuStep_part :
    let s := { onTape [0o377#8] with fcnt := 1#2 }
    Ready s ∧ s.status.outValid = false ∧ s.tape[s.ipos]? = some 0o377#8 ∧ isBinary 0o377#8 = true ∧ s.fcnt ≠ 2#2 := by
  decide
theorem witness_fuStep_last :
    let s := { onTape [0o200#8] with fcnt := 2#2 }
    Ready s ∧ s.status.outValid = false ∧ s.tape[s.ipos]? = some 0o200#8 ∧ isBinary 0o200#8 = true ∧ s.fcnt = 2#2 := by
  decide
theorem witness_fuStep_blank :
    let s := onTape [0o177#8]
    Ready s ∧ s.status.outValid = false ∧ s.tape[s.ipos]? = some 0o177#8 ∧ isBinary 0o177#8 = false ∧ s.fcnt = 0#2 := by
  decide
theorem witness_fuStep_inner_blank :
    let s := { onTape [0o000#8] with fcnt := 1#2 }
    Ready s ∧ s.status.outValid = false ∧ s.tape[s.ipos]? = some 0o000#8 ∧ isBinary 0o000#8 = false ∧ s.fcnt ≠ 0#2 := by
  decide
theorem witness_fuStep_at_end :
    let s := { onTape [0o200#8] with ipos := 1 }
    Ready s ∧ s.status.outValid = false ∧ s.tape[s.ipos]? = none := by decide

theorem witness_frame_items :
    (∀ c : BitVec 2, Ready { State.reset with fcnt := c } ∧ ({ State.reset with fcnt := c } : State).status.outValid = false) ∧
      (1#2 ≠ 2#2 ∧ 1#2 ≠ 0#2) := by decide

theorem witness_fuEnd_between_words :
    let s := { onTape [0#8] with ipos := 1, gap := 1 }
    Ready s ∧ s.status.outValid = false ∧ s.tape[s.ipos]? = none ∧ s.fcnt = 0#2 := by decide
theorem witness_fuEnd_inside_word :
    let s := { onTape [0o200#8] with ipos := 1, fcnt := 1#2 }
    Ready s ∧ s.status.outValid = false ∧ s.tape[s.ipos]? = none ∧ s.fcnt ≠ 0#2 := by decide
theorem witness_fuEnd_before_end :
    let s := onTape [0#8]
    Ready s ∧ s.status.outValid = false ∧ (s.tape[s.ipos]?).isSome = true := by decide

theorem witness_readWord_end :
    let s := onTape [0o000#8, 0o177#8]
    Ready s ∧ s.status.outValid = false ∧ s.fcnt = 0#2 ∧ (∀ f ∈ [0o000#8, 0o177#8], isBinary f = false) ∧
      (s.gap = 0 ∨ s.streamEnded = true) ∧ s.tape.drop s.ipos = [0o000#8, 0o177#8] := by decide
theorem witness_readWord_end_again :
    let s := { onTape [0o000#8] with ipos := 1, gap := 1, streamEnded := true }
    Ready s ∧ s.status.outValid = false ∧ s.fcnt = 0#2 ∧ (s.gap = 0 ∨ s.streamEnded = true) ∧
      s.tape.drop s.ipos = [] := by decide
theorem witness_readWord_gap_pending :
    let s := { onTape [0o000#8] with ipos := 1, gap := 1 }
    Ready s ∧ s.status.outValid = false ∧ s.fcnt = 0#2 ∧ s.gap ≠ 0 ∧ s.streamEnded = false := by decide
theorem witness_readWord_word :
    let s := onTape [0o100#8, 0o300#8, 0o300#8, 0o301#8, 0o000#8]
    Ready s ∧ s.status.outValid = false ∧ s.fcnt = 0#2 ∧ (∀ f ∈ [0o100#8], isBinary f = false) ∧ s.gap = 0 ∧
      s.tape.drop s.ipos = [0o100#8] ++ 0o300#8 :: 0o300#8 :: 0o301#8 :: [0o000#8] ∧
      decodeFrame 0o300#8 0o300#8 0o301#8 = some 1#18 := by decide
theorem witness_readWord_cut :
    let s := onTape [0o000#8, 0o200#8]
    let s' := onTape [0o200#8, 0o277#8]
    Ready s ∧ s.status.outValid = false ∧ s.fcnt = 0#2 ∧ s.gap = 0 ∧ isBinary 0o200#8 = true ∧
      s.tape.drop s.ipos = [0o000#8] ++ [0o200#8] ∧ Ready s' ∧ s'.tape.drop s'.ipos = [] ++ [0o200#8, 0o277#8] ∧
      isBinary 0o277#8 = true := by decide
theorem witness_readWord_inner_blank :
    let s := onTape [0o200#8, 0o177#8]
    let s' := onTape [0o200#8, 0o200#8, 0o000#8]
    Ready s ∧ s.status.outValid = false ∧ s.fcnt = 0#2 ∧ s.gap = 0 ∧ isBinary 0o200#8 = true ∧
      s.tape.drop s.ipos = [] ++ 0o200#8 :: 0o177#8 :: [] ∧ isBinary 0o177#8 = false ∧ Ready s' ∧
      s'.tape.drop s'.ipos = [] ++ 0o200#8 :: 0o200#8 :: 0o000#8 :: [] ∧ isBinary 0o000#8 = false := by decide

theorem witness_peekGap :
    let s := onTape [0o177#8]
    let s' := onTape [0o177#8, 0o200#8]
    Ready s ∧ s.fcnt = 0#2 ∧ (∀ b ∈ [0o177#8], isBinary b = false) ∧ s.tape.drop s.ipos = [0o177#8] ∧ Ready s' ∧
      s'.tape.drop s'.ipos = [0o177#8] ++ 0o200#8 :: [] ∧ isBinary 0o200#8 = true := by decide
theorem witness_peek_then_read_end :
    let s := onTape [0o000#8]
    Ready s ∧ s.fcnt = 0#2 ∧ s.gap = 0 ∧ ∃ t, exec .peekGap s = .next t ∧ t.result = .peek false 1 :=
  ⟨by decide, rfl, rfl, _, rfl, rfl⟩
theorem witness_peek_then_read_word :
    let s := onTape [0o200#8]
    Ready s ∧ s.fcnt = 0#2 ∧ s.gap = 0 ∧ ∃ t, exec .peekGap s = .next t ∧ t.result = .peek true 0 :=
  ⟨by decide, rfl, rfl, _, rfl, rfl⟩

theorem witness_frame_codec :
    Ready State.reset ∧ ((0o200#8).getLsbD 7 = true ∧ (0o377#8).getLsbD 7 = true) ∧ (0o177#8).getLsbD 7 = false := by decide
theorem witness_written_words :
    let s := { State.reset with mode := .tweak }
    Ready s ∧ s.mode = .tweak ∧ s.out = [] ∧
      ∃ t u, exec (.writeGap 2) s = .next t ∧ exec (.writeWord 0o777777#18) t = .next u :=
  ⟨by decide, rfl, rfl, _, _, rfl, rfl⟩
theorem witness_checksum_order : ([1#18, 0o777777#18]).Perm [0o777777#18, 1#18] := by decide
theorem witness_checksum_lists :
    (∀ w ∈ [0#18, 0#18], w = 0#18) ∧ ∃ w ∈ [0#18, 0o777777#18], w ≠ 0#18 :=
  ⟨by simp, _, .tail _ (.head _), by decide⟩
theorem witness_bit_flip : Ready State.reset ∧ State.reset.status.outValid = false ∧ 17 < 18 := by decide
theorem witness_verify :
    Ready State.reset ∧ State.reset.status.outValid = false ∧ 0#18 = 0#18 ∧ 0#18 ≠ 0o777777#18 := by decide
theorem witness_classify :
    Ready State.reset ∧ (0o600000#18).toNat = 0o600000 ∧ 0o700000 ≤ (0o700000#18).toNat ∧
      0o700000 ≤ (0o777777#18).toNat ∧ (0o600001#18).toNat ≠ 0o600000 ∧ (0o600001#18).toNat < 0o700000 ∧
      (0o677777#18).toNat ≠ 0o600000 ∧ (0o677777#18).toNat < 0o700000 := by decide
theorem witness_decode : Ready State.reset := by decide
theorem witness_pitchInfo : Ready State.reset ∧ (1#6).toNat < 2 ∧ 2 ≤ (2#6).toNat ∧ 2 ≤ (63#6).toNat := by decide
theorem witness_articulationName :
    Ready State.reset ∧ State.reset.status.outValid = false ∧
      (9#4 ≠ 0#4 ∧ 9#4 ≠ 1#4 ∧ 9#4 ≠ 2#4 ∧ 9#4 ≠ 4#4 ∧ 9#4 ≠ 8#4) := by decide
theorem witness_tempo :
    Ready State.reset ∧ (0o700000#18).toNat % 32768 = 0 ∧ (0o700001#18).toNat % 32768 ≠ 0 := by decide
theorem witness_encodeNote :
    Ready State.reset ∧ (4#4).getLsbD 0 = (21#6).getLsbD 5 ∧ (4#4).getLsbD 3 = (0#1).getLsbD 0 ∧
      classify (0#2 ++ 4#4 ++ (21#6).extractLsb' 0 5 ++ 8#7) = .note ∧ (0#4).getLsbD 0 ≠ (33#6).getLsbD 5 ∧
      (8#4).getLsbD 3 ≠ (0#1).getLsbD 0 ∧ classify (3#2 ++ 0#4 ++ (0#6).extractLsb' 0 5 ++ 0#7) ≠ .note := by decide
theorem witness_codec_round_trips :
    classify 0o3420#18 = .note ∧ encodeNote (noteFields 0o102210#18) = some 0o102210#18 ∧
      classify 0o777777#18 = .tempo := by decide
theorem witness_overlap :
    articulation (noteFields 0o102210#18).art = some .legato ∧ articulation (noteFields 0o10000#18).art = some .quarter ∧
      32 ≤ (noteFields 0o10000#18).pitch.toNat := by decide
theorem witness_packer :
    (Ready { State.reset with mode := .tweak } ∧ ({ State.reset with mode := .tweak } : State).mode = .tweak) ∧
      Ready State.reset ∧ State.reset.mode = .decode := by decide

theorem witness_notes_block :
    let b := (voice114 2).notes
    let s := { inRun (b.frames ++ [0#8]) with mode := .tweak, tempoEn := true, tempoOvr := 100#15 }
    Ready s ∧ s.status.running = true ∧ (s.seq = .expectLeaderGap ∨ s.seq = .expectNotesBlock) ∧ s.fcnt = 0#2 ∧
      s.gap = 0 ∧ s.tape.drop s.ipos = b.frames ++ [0#8] ∧ b.notesOk := by decide +kernel
theorem witness_empty_notes_block :
    let b := block 0 []
    let s := inSeq .expectNotesBlock b.frames
    Ready s ∧ s.status.running = true ∧ (s.seq = .expectLeaderGap ∨ s.seq = .expectNotesBlock) ∧ s.fcnt = 0#2 ∧
      s.gap = 0 ∧ s.tape.drop s.ipos = b.frames ++ [] ∧ b.notesOk := by decide +kernel
theorem witness_bars_block :
    let ns := [0o3420#18, 0o600000#18]
    let b := block 1 [1#18, 0o600000#18]
    let s := beforeBars ns (b.frames ++ ([0#8] ++ [0o200#8]))
    Ready s ∧ s.status.running = true ∧ s.seq = .expectGap1 ∧ s.notesValid = true ∧ s.fcnt = 0#2 ∧ s.gap = 0 ∧
      ns.length < 262144 ∧ s.notesCount = BitVec.ofNat 18 ns.length ∧ s.notes = cellsFrom 0 ns ∧
      s.tape.drop s.ipos = b.frames ++ ([0#8] ++ [0o200#8]) ∧ b.barsOk ns.length ∧ (∀ f ∈ [0#8], isBinary f = false) ∧
      isBinary 0o200#8 = true := by decide +kernel
theorem witness_empty_bars_block_at_end :
    let b := block 1 []
    let s := beforeBars [] (b.frames ++ ([] ++ []))
    Ready s ∧ s.status.running = true ∧ s.seq = .expectGap1 ∧ s.notesValid = true ∧ s.fcnt = 0#2 ∧ s.gap = 0 ∧
      s.notesCount = BitVec.ofNat 18 0 ∧ s.notes = cellsFrom 0 [] ∧ s.tape.drop s.ipos = b.frames ++ ([] ++ []) ∧
      b.barsOk 0 := by decide +kernel

/-- T4i's note, code 3, as the last word its block declares. -/
theorem witness_illegal_articulation :
    let c := plain 1 2#18
    let xs := [plain 0 0o700001#18]
    let x := plain 3 0o30020#18
    let s := inRun ((c :: xs ++ [x]).flatMap InkedWord.frames ++ [0o200#8])
    Ready s ∧ s.status.outValid = false ∧ s.status.running = true ∧ (s.seq = .expectLeaderGap ∨ s.seq = .expectNotesBlock) ∧
      s.fcnt = 0#2 ∧ s.gap = 0 ∧ s.tape.drop s.ipos = (c :: xs ++ [x]).flatMap InkedWord.frames ++ [0o200#8] ∧
      xs.length < c.w.toNat ∧ (∀ y ∈ xs, legalContent y.w) ∧ ¬ legalContent x.w := by decide +kernel
theorem witness_wrong_notes_checksum :
    let b := { block 0 [0o3420#18, 0o45210#18] with check := plain 0 0o50627#18 }
    let s := inRun b.frames
    Ready s ∧ s.status.outValid = false ∧ s.status.running = true ∧ s.fcnt = 0#2 ∧ s.gap = 0 ∧
      s.tape.drop s.ipos = b.frames ++ [] ∧ b.counted ∧ b.check.w ≠ blockChecksum b.words ∧
      (s.seq = .expectLeaderGap ∨ s.seq = .expectNotesBlock) ∧ (∀ x ∈ b.content, legalContent x.w) := by decide +kernel
theorem witness_wrong_bars_checksum :
    let ns := [0o1640#18]
    let b := { block 1 [0#18] with check := plain 0 0o777777#18 }
    let s := beforeBars ns b.frames
    Ready s ∧ s.status.outValid = false ∧ s.status.running = true ∧ s.fcnt = 0#2 ∧ s.gap = 0 ∧
      s.tape.drop s.ipos = b.frames ++ [] ∧ b.counted ∧ b.check.w ≠ blockChecksum b.words ∧ s.seq = .expectGap1 ∧
      s.notesValid = true ∧ ns.length < 262144 ∧ s.notesCount = BitVec.ofNat 18 ns.length ∧ s.notes = cellsFrom 0 ns ∧
      0 < b.gap ∧ (∀ x ∈ b.content, x.w = Config.sep ∨ x.w.toNat < ns.length) := by decide +kernel
theorem witness_missing_gap :
    let c := plain 0 1#18
    let s := beforeBars [] (c.frames ++ [0#8])
    Ready s ∧ s.status.outValid = false ∧ s.status.running = true ∧ s.seq = .expectGap1 ∧ s.notesValid = true ∧
      s.fcnt = 0#2 ∧ s.gap = 0 ∧ c.blanks = [] ∧ s.tape.drop s.ipos = c.frames ++ [0#8] := by decide +kernel
theorem witness_index_out_of_range :
    let ns := [0o1640#18]
    let c := plain 1 2#18
    let xs := [plain 0 0#18]
    let x := plain 0 1#18
    let s := beforeBars ns ((c :: xs ++ [x]).flatMap InkedWord.frames ++ [])
    Ready s ∧ s.status.outValid = false ∧ s.status.running = true ∧ s.seq = .expectGap1 ∧ s.notesValid = true ∧
      s.fcnt = 0#2 ∧ s.gap = 0 ∧ ns.length < 262144 ∧ s.notesCount = BitVec.ofNat 18 ns.length ∧
      s.notes = cellsFrom 0 ns ∧ 0 < c.blanks.length ∧
      s.tape.drop s.ipos = (c :: xs ++ [x]).flatMap InkedWord.frames ++ [] ∧ xs.length < c.w.toNat ∧
      (∀ y ∈ xs, y.w = Config.sep ∨ y.w.toNat < ns.length) ∧ x.w ≠ Config.sep ∧ ns.length ≤ x.w.toNat := by
  decide +kernel
theorem witness_end_at_count_word :
    let s := inRun (blankFrames [0#7])
    let s' := beforeBars [] (blankFrames [])
    Ready s ∧ s.status.outValid = false ∧ s.status.running = true ∧ s.fcnt = 0#2 ∧ s.gap = 0 ∧
      (s.seq = .expectLeaderGap ∨ s.seq = .expectNotesBlock) ∧ s.tape.drop s.ipos = blankFrames [0#7] ∧ Ready s' ∧
      s'.status.running = true ∧ s'.seq = .expectGap1 ∧ s'.notesValid = true ∧ s'.tape.drop s'.ipos = blankFrames [] := by
  decide
theorem witness_end_at_checksum_word :
    let c := plain 1 1#18
    let xs := [plain 0 0o600000#18]
    let fs := (c :: xs).flatMap InkedWord.frames ++ blankFrames [0o177#7]
    let s := inRun fs
    let s' := beforeBars [] fs
    Ready s ∧ s.status.outValid = false ∧ s.status.running = true ∧ s.fcnt = 0#2 ∧ s.gap = 0 ∧
      (s.seq = .expectLeaderGap ∨ s.seq = .expectNotesBlock) ∧ s.tape.drop s.ipos = fs ∧ xs.length ≤ c.w.toNat ∧
      (∀ y ∈ xs, legalContent y.w) ∧ Ready s' ∧ s'.status.running = true ∧ s'.seq = .expectGap1 ∧
      s'.notesValid = true ∧ s'.notesCount = BitVec.ofNat 18 0 ∧ s'.notes = cellsFrom 0 [] ∧ 0 < c.blanks.length ∧
      s'.tape.drop s'.ipos = fs ∧ (∀ y ∈ xs, y.w = Config.sep ∨ y.w.toNat < 0) := by decide +kernel
theorem witness_broken_group_at_count_word :
    let g := brokenGroup [0o177#7] 0#7 none [0#8, 0o200#8]
    let s := inRun g
    let s' := beforeBars [] (brokenGroup [] 0o177#7 (some 5#7) [])
    Ready s ∧ s.status.outValid = false ∧ s.status.running = true ∧ s.fcnt = 0#2 ∧
      breaksGroup [0#8, 0o200#8] 1 = true ∧ (s.seq = .expectLeaderGap ∨ s.seq = .expectNotesBlock) ∧
      s.tape.drop s.ipos = g ∧ Ready s' ∧ s'.status.outValid = false ∧ s'.status.running = true ∧ s'.fcnt = 0#2 ∧
      breaksGroup [] 2 = true ∧ s'.seq = .expectGap1 ∧ s'.notesValid = true ∧
      s'.tape.drop s'.ipos = brokenGroup [] 0o177#7 (some 5#7) [] := by decide
theorem witness_broken_group_at_content_word :
    let c := plain 1 1#18
    let fs := [c].flatMap InkedWord.frames ++ brokenGroup [] 3#7 (some 4#7) [0o17#8]
    let s := { inRun fs with seq := .expectNotesBlock, voice := 2#3 }
    let s' := beforeBars [] fs
    Ready s ∧ s.status.outValid = false ∧ s.status.running = true ∧ s.fcnt = 0#2 ∧
      (s.seq = .expectLeaderGap ∨ s.seq = .expectNotesBlock) ∧ s.tape.drop s.ipos = fs ∧ 0 < c.w.toNat ∧
      breaksGroup [0o17#8] 1 = true ∧ Ready s' ∧ s'.status.running = true ∧ s'.fcnt = 0#2 ∧ s'.seq = .expectGap1 ∧
      s'.notesValid = true ∧ s'.notesCount = BitVec.ofNat 18 0 ∧ s'.notes = cellsFrom 0 [] ∧ 0 < c.blanks.length ∧
      s'.tape.drop s'.ipos = fs := by decide +kernel
theorem witness_broken_group_at_checksum_word :
    let c := plain 1 1#18
    let xs := [plain 0 0o600000#18]
    let fs := (c :: xs).flatMap InkedWord.frames ++ brokenGroup [] 3#7 none []
    let s := inRun fs
    let s' := beforeBars [] fs
    Ready s ∧ s.status.outValid = false ∧ s.status.running = true ∧ s.fcnt = 0#2 ∧
      (s.seq = .expectLeaderGap ∨ s.seq = .expectNotesBlock) ∧ s.tape.drop s.ipos = fs ∧ xs.length = c.w.toNat ∧
      breaksGroup [] 2 = true ∧
      (∀ y ∈ xs, legalContent y.w) ∧ Ready s' ∧ s'.status.running = true ∧ s'.fcnt = 0#2 ∧ s'.seq = .expectGap1 ∧
      s'.notesValid = true ∧ s'.notesCount = BitVec.ofNat 18 0 ∧ s'.notes = cellsFrom 0 [] ∧ 0 < c.blanks.length ∧
      s'.tape.drop s'.ipos = fs ∧ (∀ y ∈ xs, y.w = Config.sep ∨ y.w.toNat < 0) := by decide +kernel
theorem witness_barSlice :
    let ns := [0o1640#18, 0o600000#18]
    let s := beforeBars ns []
    Ready s ∧ ns.length < 262144 ∧ s.notesCount = BitVec.ofNat 18 ns.length ∧ s.notes = cellsFrom 0 ns ∧
      (1#18).toNat < ns.length ∧ ns.length ≤ (2#18).toNat := by decide

theorem witness_notes_content :
    let s := inNotes
    Ready s ∧ s.status.outValid = false ∧ s.status.running = true ∧ s.seq = .expectNotesBlock ∧ s.blk = .notes ∧
      s.idx < s.count.toNat ∧ legalContent Config.sep ∧ legalContent (tempoWord 0o77777#15) ∧
      (Instr.note 0#2 1#1 0#2 0#1 9#5 8#7).wellFormed = true ∧ legalContent (noteWord 0#2 1#1 0#2 0#1 9#5 8#7) ∧
      (Instr.note 0#2 0#1 1#2 1#1 0#5 0#7).wellFormed = true ∧ ¬ legalContent (noteWord 0#2 0#1 1#2 1#1 0#5 0#7) := by
  decide +kernel
theorem witness_bars_content :
    let ns := [0o1640#18]
    let s := inBars ns
    Ready s ∧ s.status.outValid = false ∧ s.status.running = true ∧ s.seq = .expectBarsBlock ∧ s.idx < s.count.toNat ∧
      ns.length < 262144 ∧ s.notesCount = BitVec.ofNat 18 ns.length ∧ s.notes = cellsFrom 0 ns ∧
      (Instr.index 0#18).wellFormed = true ∧ (0#18).toNat < ns.length ∧ (Instr.index 1#18).wellFormed = true ∧
      1#18 ≠ Config.sep ∧ ns.length ≤ (1#18).toNat := by decide +kernel
theorem witness_count_item :
    (Ready (inRun []) ∧ (inRun []).status.outValid = false ∧ (inRun []).status.running = true ∧
        (inRun []).seq = .expectLeaderGap) ∧
      (Ready (inSeq .expectNotesBlock []) ∧ (inSeq .expectNotesBlock []).seq = .expectNotesBlock) ∧
      ((beforeBars [] []).seq = .expectGap1 ∧ (beforeBars [] []).notesValid = true ∧ (beforeBars [] []).wordGap = 0) ∧
      ({ beforeBars [] [] with wordGap := 1 } : State).wordGap ≠ 0 := by decide
theorem witness_count_item_inside_a_block :
    Ready inNotes ∧ inNotes.status.outValid = false ∧ inNotes.status.running = true ∧
      (inNotes.seq = .expectLeaderGap ∨ inNotes.seq = .expectNotesBlock) ∧ inNotes.blk = .notes := by decide
theorem witness_checksum_item :
    let n := { inNotes with idx := 1 }
    let b := { inBars [] with idx := 1 }
    Ready n ∧ n.status.outValid = false ∧ n.status.running = true ∧ n.count.toNat ≤ n.idx ∧ n.seq = .expectNotesBlock ∧
      n.blk = .notes ∧ 0#18 = n.sumIn ∧ 0o777777#18 ≠ n.sumIn ∧ Ready b ∧ b.status.running = true ∧
      b.count.toNat ≤ b.idx ∧ b.seq = .expectBarsBlock ∧ 0#18 = b.sumIn ∧ 1#18 ≠ b.sumIn := by decide

/-- One voice, and four, of the tape of R114. -/
theorem witness_well_formed_tape :
    let one := [voice114 2]
    let four := [voice114 0, voice114 3, voice114 1] ++ [voice114 2]
    let s := onTape (tapeFrames one [0#7, 0#7, 0#7])
    let s' := { onTape (tapeFrames four []) with mode := .tweak, tempoEn := true, gapLen := 0 }
    s.tape = tape114 ∧ Ready s ∧ atReset s ∧ s.mode = .decode ∧ (∀ x ∈ one, x.ok) ∧ Ready s' ∧ atReset s' ∧
      s'.mode = .tweak ∧ (∀ x ∈ four, x.ok) := by decide +kernel
theorem witness_trailing_data :
    let vs := List.replicate 4 (voice114 1)
    let s := onTape (vs.flatMap InkedVoice.frames ++ [0#8] ++ 0o200#8 :: [])
    Ready s ∧ atReset s ∧ vs.length = 4 ∧ (∀ x ∈ vs, x.ok) ∧ (∀ b ∈ [0#8], isBinary b = false) ∧
      isBinary 0o200#8 = true := by decide +kernel
theorem witness_run_outcome : Ready (onTape [0o200#8]) ∧ atReset (onTape [0o200#8]) := by decide
theorem witness_tweak_without_override :
    Ready (onTape tape114) ∧ atReset (onTape tape114) ∧ (onTape tape114).tempoEn = false ∧
      ∃ t, exec .runTweak (onTape tape114) = .next t ∧ t.status.done = true :=
  ⟨by decide, by decide, rfl, nextIs_exists (p := fun t => t.status.done) (by decide +kernel)⟩
theorem witness_tweak_with_override :
    let s := { onTape tape114 with tempoEn := true, tempoOvr := 0o144#15 }
    Ready s ∧ atReset s ∧ s.tempoEn = true ∧ ∃ t, exec .runTweak s = .next t ∧ t.status.done = true :=
  ⟨by decide, by decide, rfl, nextIs_exists (p := fun t => t.status.done) (by decide +kernel)⟩
theorem witness_stepped_run :
    let s := { onTape tape114 with level := .word }
    Ready s ∧ atReset s ∧ s.level = .word := by decide

theorem witness_fault_entry :
    let s := inNotes
    s.fault = 0#4 ∧ s.status.outValid = false ∧
      ∃ t, exec (.note 0#2 0#1 1#2 1#1 0#5 0#7) s = .next t ∧ t.fault ≠ 0#4 :=
  ⟨rfl, rfl, by
    obtain ⟨t, h, hp⟩ := nextIs_exists (o := exec (.note 0#2 0#1 1#2 1#1 0#5 0#7) inNotes) (p := fun t => t.fault != 0#4)
      (by decide +kernel)
    exact ⟨t, h, by simpa using hp⟩⟩
theorem witness_terminal_states :
    Instr.readWord ≠ .coreReset ∧ faulted.fault ≠ 0#4 ∧ ended.fault = 0#4 ∧ ended.status.done = true := by decide
theorem witness_run_refused :
    (Ready { State.reset with ipos := 1 } ∧ ¬ atReset { State.reset with ipos := 1 }) ∧
      (Ready { State.reset with driven := true } ∧ ¬ atReset { State.reset with driven := true }) := by decide
theorem witness_run_after_another_operation :
    let is := [Instr.setMode .tweak, .add 1#18 2#18]
    (∀ j ∈ is, j ≠ .coreReset) ∧ (∃ j ∈ is, configures j = false) ∧
      (∀ j ∈ [Instr.setMode .tweak, .setGapLen 2], configures j = true) := by decide
theorem witness_block_preconditions :
    let idle := { State.reset with mode := .tweak }
    let wrong := { inSeq .expectGap2 [] with mode := .tweak }
    let mid := { inSeq .expectNotesBlock [] with mode := .tweak, fcnt := 1#2 }
    (Ready idle ∧ idle.status.running = false ∧ idle.mode = .tweak) ∧
      (Ready wrong ∧ wrong.status.running = true ∧ wrong.seq ≠ .expectLeaderGap ∧ wrong.seq ≠ .expectNotesBlock ∧
        wrong.mode = .tweak) ∧
      (Ready mid ∧ mid.status.running = true ∧ (mid.seq = .expectLeaderGap ∨ mid.seq = .expectNotesBlock) ∧
        mid.fcnt ≠ 0#2 ∧ mid.mode = .tweak) ∧
      (Ready State.reset ∧ State.reset.mode = .decode) := by decide
theorem witness_bars_block_preconditions :
    let wrong := inSeq .expectLeaderGap []
    let free := inSeq .expectGap1 []
    let mid := { beforeBars [] [] with fcnt := 2#2 }
    (Ready State.reset ∧ State.reset.status.running = false) ∧
      (Ready wrong ∧ wrong.status.running = true ∧ wrong.seq ≠ .expectGap1) ∧
      (Ready free ∧ free.status.running = true ∧ free.seq = .expectGap1 ∧ free.notesValid = false) ∧
      (Ready mid ∧ mid.status.running = true ∧ mid.seq = .expectGap1 ∧ mid.notesValid = true ∧ mid.fcnt ≠ 0#2) := by
  decide

theorem witness_step_operation :
    let s := { State.reset with port := [7#8, 8#8] }
    s.level = .operation ∧ decode .port s.port = .ok (.readWord, [8#8]) := by decide
theorem witness_step_frame :
    let s := { onTape [0o205#8] with level := .frame }
    s.level = .frame ∧ s.tape[s.ipos]? = some 0o205#8 ∧ decode .frame [0o205#8] = .ok (.bin 0#1 5#6, []) := by decide
theorem witness_step_word :
    let s := { inRun (wordFrames 2#18) with level := .word }
    s.level = .word ∧ s.status.running = true ∧ Ready s ∧ s.fcnt = 0#2 ∧ position s = some .notesCount ∧
      (∃ r s', readBlockWord (beginBlock .notesCount s) = .done r s' ∧
        decode (.word .notesCount) (wordFrames r.w ++ []) = .ok (.count 2#18, [])) :=
  ⟨rfl, rfl, by decide, rfl, rfl, _, _, rfl, by decide⟩
theorem witness_step_word_of_bars :
    let s := { beforeBars [] (0#8 :: wordFrames 0#18) with level := .word }
    Ready s ∧ position s = some .barsCount ∧ s.notesValid = true ∧
      ∃ r s', readBlockWord (beginBlock .barsCount s) = .done r s' :=
  ⟨by decide, rfl, rfl, _, _, rfl⟩
theorem witness_frame_level :
    let s := { onTape [0o205#8] with level := .frame }
    let s' := { onTape [] with level := .frame }
    s.level = .frame ∧ s.ipos < s.tape.length ∧ Ready s ∧ s'.level = .frame ∧ s'.tape.length ≤ s'.ipos := by decide
theorem witness_well_formed_instruction :
    (Instr.note 3#2 0#1 0#2 0#1 0#5 1#7).wellFormed = true ∧ (Instr.index 0#18).wellFormed = true := by decide

/-- A state in mid-run that meets the invariant, and a step from it. -/
theorem witness_invariant : Inv { inNotes with level := .word, tape := wordFrames 0o3420#18 } ∧
    ∃ t, step { inNotes with level := .word, tape := wordFrames 0o3420#18 } = .next t := by
  refine ⟨⟨fun _ => ⟨?_, ?_, ?_, ?_, ?_, ?_, ?_, ?_, ?_, ?_, ?_, ?_, ?_⟩, ?_, ?_, ?_, ?_, ?_, ?_, ?_, ?_⟩, ?_⟩
  case refine_22 =>
    obtain ⟨t, h, _⟩ := nextIs_exists (o := step { inNotes with level := .word, tape := wordFrames 0o3420#18 })
      (p := fun _ => true) (by decide +kernel)
    exact ⟨t, h⟩
  all_goals decide

theorem witness_decode_mode :
    Instr.start ≠ .coreReset ∧ Instr.start ≠ .runTweak ∧ (onTape tape114).mode = .decode ∧
      ∃ t, exec .start (onTape tape114) = .next t ∧ t.fault = 0#4 := by
  obtain ⟨t, h, hp⟩ := nextIs_exists (o := exec .start (onTape tape114)) (p := fun t => t.fault == 0#4) (by decide +kernel)
  exact ⟨by decide, by decide, rfl, t, h, by simpa using hp⟩
theorem witness_tape_kept :
    (∃ t, exec .readWord (onTape tape114) = .next t) ∧ ∃ t, step { onTape tape114 with port := [7#8] } = .next t :=
  ⟨⟨_, rfl⟩, _, rfl⟩
theorem witness_configuration_kept :
    Instr.parseNotesBlock ≠ .coreReset ∧ (inRun tape114).status.running = true ∧
      ∃ t, exec .parseNotesBlock (inRun tape114) = .next t ∧ t.fault = 0#4 := by
  obtain ⟨t, h, hp⟩ := nextIs_exists (o := exec .parseNotesBlock (inRun tape114)) (p := fun t => t.fault == 0#4)
    (by decide +kernel)
  exact ⟨by decide, rfl, t, h, by simpa using hp⟩
theorem witness_tape_position :
    Instr.fuStep ≠ .coreReset ∧ ∃ t, exec .fuStep (onTape [0#8]) = .next t ∧ t.fault = 0#4 :=
  ⟨by decide, _, rfl, rfl⟩

end Sys2Proof.Tests
end

/-! SUPPORT. Three parts of the state, each a record of registers, so that "these registers are as before" is one equation;
what an operation or a part of it may do to them (`Quiet`, `Raised`), and that every part of an operation does no more. -/

namespace Sys2Proof.Machine

/-! ### Parts of the state -/

/-- What the host puts in place: the tape, the configuration (R48 to R50) and the level. -/
structure HostRegs where
  tape : List Frame
  mode : Mode
  tempoEn : Bool
  tempoOvr : Tempo15
  gapLen : Nat
  level : Level

/-- The registers that tell whether the machine goes on (R51, R52). -/
structure FlagRegs where
  status : Status
  fault : BitVec 4
  finfo : FInfo

/-- The registers of FU and TE, with the tape they are bounded by, and `VOICE`. -/
structure UnitRegs where
  tape : List Frame
  ipos : Nat
  streamEnded : Bool
  fcnt : BitVec 2
  acc : Word
  out : List Frame
  opos : Nat
  voice : BitVec 3

/-- The registers of the block structure (R38 to R42, R45). -/
structure BlockRegs where
  seq : Seq
  blk : Blk
  count : Word
  idx : Nat
  notesCount : Word
  notes : Memory
  notesValid : Bool

def hostRegs (s : State) : HostRegs := ⟨s.tape, s.mode, s.tempoEn, s.tempoOvr, s.gapLen, s.level⟩

def flagRegs (s : State) : FlagRegs := ⟨s.status, s.fault, s.finfo⟩

def unitRegs (s : State) : UnitRegs :=
  ⟨s.tape, s.ipos, s.streamEnded, s.fcnt, s.acc, s.out, s.opos, s.voice⟩

def blockRegs (s : State) : BlockRegs :=
  ⟨s.seq, s.blk, s.count, s.idx, s.notesCount, s.notes, s.notesValid⟩

/-- The clauses of `Live` about FU, TE and `VOICE`. -/
structure UnitRegs.Ok (u : UnitRegs) : Prop where
  tapePosition : u.ipos ≤ u.tape.length
  streamEnd : u.streamEnded = true → u.ipos = u.tape.length
  outCounted : u.opos = u.out.length
  outCanonical : ∀ f ∈ u.out, canonical f
  groupCount : u.fcnt.toNat ≤ 2
  groupBits : u.acc.toNat < 64 ^ u.fcnt.toNat
  voiceNumber : 1 ≤ u.voice.toNat ∧ u.voice.toNat ≤ 4

/-- `midNotes` of the block registers. -/
abbrev BlockRegs.mid (b : BlockRegs) : Prop := b.seq = .expectNotesBlock ∧ b.blk = .notes

/-- The clauses of `Live` about the block structure. That `NOTES` is canonical follows from its cells. -/
structure BlockRegs.Ok (b : BlockRegs) : Prop where
  indexInBlock : b.idx ≤ b.count.toNat
  notesCells : b.notes.map Prod.fst = List.range (if b.mid then b.idx else b.notesCount.toNat)
  notesCounted : b.mid → b.notesCount = b.count
  barsBegun : b.seq = .expectBarsBlock ∨ b.seq = .expectGap2 → b.blk = .bars
  bufferHeld : b.notesValid = true ↔ b.seq = .expectGap1 ∨ b.seq = .expectBarsBlock

/-- `Live` is its clauses about the units and its clauses about the block structure. -/
theorem live_iff (s : State) : Live s ↔ (unitRegs s).Ok ∧ (blockRegs s).Ok := by
  constructor
  · intro h
    exact ⟨⟨h.tapePosition, h.streamEnd, h.outCounted, h.outCanonical, h.groupCount, h.groupBits, h.voiceNumber⟩,
      h.indexInBlock, h.notesCells, h.notesCounted, h.barsBegun, h.bufferHeld⟩
  · rintro ⟨hu, hb⟩
    have hwf : s.notes.wf := by
      have hc : s.notes.map Prod.fst = _ := hb.notesCells
      rw [Memory.wf, hc]
      exact List.pairwise_lt_range
    exact ⟨hu.tapePosition, hu.streamEnd, hu.outCounted, hu.outCanonical, hu.groupCount, hu.groupBits, hu.voiceNumber,
      hb.indexInBlock, hwf, hb.notesCells, hb.notesCounted, hb.barsBegun, hb.bufferHeld⟩

@[simp] theorem blockRegs_emit (e : Event) (s : State) : blockRegs (emit e s) = blockRegs s := rfl

@[simp] theorem blockRegs_copyGap (n : Nat) (s : State) : blockRegs (copyGap n s) = blockRegs s := by simp [blockRegs]

/-- FU leaves the block structure alone (R132, R133). -/
theorem onlyFu.blockRegs {s t : State} (h : onlyFu s t) : blockRegs t = blockRegs s := by rw [h]; rfl

/-! ### What an operation may do -/

/-- The tape, the configuration and the level are as before, and `ipos` has not moved back. -/
structure Steady (s t : State) : Prop where
  host : hostRegs t = hostRegs s
  ipos : s.ipos ≤ t.ipos

/-- What a part of an operation that completes does outside the block structure: it is steady, neither raises a fault nor
ends the run, and leaves the units as `Live` asks. -/
structure Quiet (s t : State) : Prop extends Steady s t where
  flags : flagRegs t = flagRegs s
  units : (unitRegs s).Ok → (unitRegs t).Ok

/-- What fault entry does (R281), whatever went before it in the operation. -/
structure Raised (s t : State) : Prop extends Steady s t where
  fault : 1 ≤ t.fault.toNat ∧ t.fault.toNat ≤ 7
  seq : t.seq = .faulted
  status : t.status = { s.status with running := false }
  finfo : t.finfo.blk.isSome = true

theorem Steady.refl (s : State) : Steady s s := ⟨rfl, Nat.le_refl _⟩

theorem Steady.trans {s t u : State} (h1 : Steady s t) (h2 : Steady t u) : Steady s u :=
  ⟨h2.host.trans h1.host, h1.ipos.trans h2.ipos⟩

/-- A change of registers outside the three parts is quiet, and so is one of the block structure. -/
theorem Quiet.of_regs {s t : State} (hh : hostRegs t = hostRegs s) (hf : flagRegs t = flagRegs s)
    (hu : unitRegs t = unitRegs s) : Quiet s t where
  host := hh
  ipos := (congrArg UnitRegs.ipos hu).ge
  flags := hf
  units h := hu ▸ h

theorem Quiet.refl (s : State) : Quiet s s := .of_regs rfl rfl rfl

theorem Quiet.trans {s t u : State} (h1 : Quiet s t) (h2 : Quiet t u) : Quiet s u where
  toSteady := h1.toSteady.trans h2.toSteady
  flags := h2.flags.trans h1.flags
  units h := h2.units (h1.units h)

theorem Quiet.status {s t : State} (h : Quiet s t) : t.status = s.status := congrArg FlagRegs.status h.flags

theorem Quiet.level {s t : State} (h : Quiet s t) : t.level = s.level := congrArg HostRegs.level h.host

/-- A fault raised after quiet work is a fault raised by the whole. -/
theorem Quiet.raised {s t u : State} (h1 : Quiet s t) (h2 : Raised t u) : Raised s u where
  toSteady := h1.toSteady.trans h2.toSteady
  fault := h2.fault
  seq := h2.seq
  status := h1.status ▸ h2.status
  finfo := h2.finfo

/-- Fault entry with one of CORE's seven kinds and the fields every fault has (R271, R280). -/
theorem raised_raise {k : FaultKind} {info : FInfo} (s : State) (hk : k ≠ .ioError) (hi : info.blk.isSome = true) :
    Raised s (raise k info s) where
  host := rfl
  ipos := Nat.le_refl _
  fault := by
    cases k
    case ioError => exact absurd rfl hk
    all_goals simp [FaultKind.code]
  seq := rfl
  status := rfl
  finfo := hi

/-! ### How a part of an operation ends -/

/-- The part completes only with `Q` and raises a fault only into `R`. -/
def Act.Ends {α : Type} (x : Act α) (Q : α → State → Prop) (R : State → Prop) : Prop :=
  match x with
  | .done a t => Q a t
  | .raised t => R t
  | .stuck _ => True

variable {α β : Type}

theorem Act.Ends.of_done {x : Act α} {Q : α → State → Prop} {R : State → Prop} (h : x.Ends Q R) {a : α} {t : State}
    (hx : x = .done a t) : Q a t := by
  subst hx
  exact h

theorem Act.Ends.of_raised {x : Act α} {Q : α → State → Prop} {R : State → Prop} (h : x.Ends Q R) {t : State}
    (hx : x = .raised t) : R t := by
  subst hx
  exact h

theorem Act.Ends.mono {x : Act α} {Q Q' : α → State → Prop} {R R' : State → Prop} (h : x.Ends Q R)
    (hQ : ∀ a t, x = .done a t → Q a t → Q' a t) (hR : ∀ t, R t → R' t) : x.Ends Q' R' := by
  cases x with
  | done a t => exact hQ a t rfl h
  | raised t => exact hR t h
  | stuck _ => trivial

/-- A sequence ends as its second part does from where the first ends. -/
theorem Act.Ends.bind {x : Act α} {f : α → State → Act β} {Q : α → State → Prop} {Q' : β → State → Prop}
    {R : State → Prop} (h : x.Ends Q R) (hf : ∀ a t, x = .done a t → Q a t → (f a t).Ends Q' R) :
    (x.bind f).Ends Q' R := by
  cases x with
  | done a t => exact hf a t rfl h
  | raised t => exact h
  | stuck _ => trivial

/-- The part does nothing but quiet work, or raises a fault after it. -/
abbrev Sound (s : State) (x : Act α) : Prop := x.Ends (fun _ t => Quiet s t) (Raised s)

theorem sound_done {s t : State} (a : α) (h : Quiet s t) : Sound s (.done a t) := h

theorem sound_raised {s t : State} (h : Raised s t) : Sound s (.raised t : Act α) := h

theorem sound_stuck (s : State) (f : Fault) : Sound s (.stuck f : Act α) := trivial

/-- Sound work after quiet work is sound. -/
theorem Quiet.sound {s t : State} {x : Act α} (h : Quiet s t) (hx : Sound t x) : Sound s x :=
  Act.Ends.mono hx (fun _ _ _ => h.trans) (fun _ => h.raised)

theorem sound_bind {s : State} {x : Act α} {f : α → State → Act β} (h : Sound s x)
    (hf : ∀ a t, x = .done a t → Sound t (f a t)) : Sound s (x.bind f) :=
  Act.Ends.bind h fun a t hx hq => hq.sound (hf a t hx)

/-- Sound work is steady, however it ends. -/
theorem Sound.steady {s : State} {x : Act α} (h : Sound s x) : x.Ends (fun _ => Steady s) (Steady s) :=
  Act.Ends.mono h (fun _ _ _ q => q.toSteady) (fun _ r => r.toSteady)

/-! ### The output -/

theorem quiet_emit (e : Event) (s : State) : Quiet s (emit e s) := .of_regs rfl rfl rfl

theorem quiet_setResult (r : Result) (s : State) : Quiet s (setResult r s) := .of_regs rfl rfl rfl

theorem quiet_drive (s : State) : Quiet s (drive s) := .of_regs rfl rfl rfl

/-- TE appends whole lists of canonical frames and counts them (R43, R226). -/
theorem quiet_appendFrames {fs : List Frame} (s : State) (hfs : ∀ f ∈ fs, canonical f) : Quiet s (appendFrames fs s) where
  host := rfl
  ipos := Nat.le_refl _
  flags := rfl
  units h :=
    { tapePosition := h.tapePosition
      streamEnd := h.streamEnd
      outCounted := by
        have hc : s.opos = s.out.length := h.outCounted
        simp [unitRegs, hc]
      outCanonical := fun f hf => (List.mem_append.1 hf).elim (h.outCanonical f) (hfs f)
      groupCount := h.groupCount
      groupBits := h.groupBits
      voiceNumber := h.voiceNumber }

theorem binFrame_canonical (d : Data6) : canonical (binFrame d) :=
  .inr ⟨by simp [isBinary, binFrame, Config.binFlag], by simp [binFrame, Config.binFlag]⟩

theorem quiet_putWord (w : Word) (s : State) : Quiet s (putWord w s) :=
  quiet_appendFrames s fun f hf => by
    simp only [wordFrames, encodeFrame, List.mem_cons, List.not_mem_nil, or_false] at hf
    rcases hf with rfl | rfl | rfl <;> exact binFrame_canonical _

theorem quiet_putGap (n : Nat) (s : State) : Quiet s (putGap n s) :=
  quiet_appendFrames s fun _ hf => .inl (List.eq_of_mem_replicate hf)

theorem quiet_copyWord (w : Word) (s : State) : Quiet s (copyWord w s) := by
  unfold copyWord
  split
  · exact quiet_putWord w s
  · exact .refl s

theorem quiet_copyGap (n : Nat) (s : State) : Quiet s (copyGap n s) := by
  unfold copyGap
  split
  · exact quiet_putGap n s
  · exact .refl s

/-! ### FU -/

/-- A frame step leaves `ipos` where `passFrame` put it (R132). -/
theorem fuFrame_ipos {f : Frame} {s t : State} {r : Option (Word × Nat)} (h : fuFrame f s = .done r t) :
    t.ipos = s.ipos := by
  unfold fuFrame at h
  split at h
  · simp only at h
    split at h <;> (injection h with _ h; subst h; rfl)
  · split at h
    · injection h with _ h; subst h; rfl
    · cases h

theorem fuFrame_steady (f : Frame) (s : State) : (fuFrame f s).Ends (fun _ => Steady s) (Raised s) := by
  cases hx : fuFrame f s with
  | done r t => exact ⟨by rw [fuFrame_onlyFu hx]; rfl, (fuFrame_ipos hx).ge⟩
  | raised t =>
    unfold fuFrame at hx
    split at hx
    · simp only at hx
      split at hx <;> cases hx
    · split at hx
      · cases hx
      · injection hx with hx
        subst hx
        exact raised_raise s nofun rfl
  | stuck r => trivial

/-- Six more bits fit into a group of one more frame (R32). -/
theorem groupBits_shift {acc : Word} {d : Data6} {n : Nat} (hn : n ≤ 1) (h : acc.toNat < 64 ^ n) :
    ((acc <<< 6) ||| d.setWidth 18).toNat < 64 ^ (n + 1) := by
  have h64 : 64 ^ (n + 1) = 2 ^ (6 * (n + 1)) := by rw [Nat.pow_mul]
  have hd : d.toNat < 2 ^ 6 := d.isLt
  have hacc : acc.toNat <<< 6 < 2 ^ (6 * (n + 1)) := by
    rw [Nat.shiftLeft_eq, ← h64, Nat.pow_succ]
    exact Nat.mul_lt_mul_of_pos_right h (by decide)
  rw [h64, BitVec.toNat_or, BitVec.toNat_shiftLeft]
  refine Nat.or_lt_two_pow (Nat.lt_of_le_of_lt (Nat.mod_le _ _) hacc) ?_
  rw [BitVec.toNat_setWidth]
  calc d.toNat % 2 ^ 18 ≤ d.toNat := Nat.mod_le _ _
    _ < 2 ^ 6 := hd
    _ ≤ 2 ^ (6 * (n + 1)) := Nat.pow_le_pow_right (by decide) (by omega)

/-- A frame of the tape, passed and taken by FU, leaves the units as `Live` asks (R31, R32). -/
theorem fuFrame_units {f : Frame} {s t : State} {r : Option (Word × Nat)} (hpos : s.ipos < s.tape.length)
    (h : fuFrame f (passFrame s) = .done r t) (hs : (unitRegs s).Ok) : (unitRegs t).Ok := by
  have hg : s.fcnt.toNat ≤ 2 := hs.groupCount
  have ha : s.acc.toNat < 64 ^ s.fcnt.toNat := hs.groupBits
  by_cases hf : isBinary f = true
  · by_cases h2 : s.fcnt = 2#2
    · rw [fuFrame_last (s := passFrame s) hf h2] at h
      injection h with _ h
      subst h
      exact
        { hs with
          tapePosition := hpos
          streamEnd := nofun
          groupCount := by simp [unitRegs]
          groupBits := by simp [unitRegs] }
    · have hn : s.fcnt.toNat ≤ 1 := by bv_omega
      have hn' : (s.fcnt + 1#2).toNat = s.fcnt.toNat + 1 := by bv_omega
      rw [fuFrame_part (s := passFrame s) hf h2] at h
      injection h with _ h
      subst h
      exact
        { hs with
          tapePosition := hpos
          streamEnd := nofun
          groupCount := by change (s.fcnt + 1#2).toNat ≤ 2; omega
          groupBits := by
            change ((s.acc <<< 6) ||| (data6 f).setWidth 18).toNat < 64 ^ (s.fcnt + 1#2).toNat
            rw [hn']
            exact groupBits_shift hn ha }
  · have hf' : isBinary f = false := by simpa using hf
    by_cases h0 : s.fcnt = 0#2
    · rw [fuFrame_blank (s := passFrame s) hf' h0] at h
      injection h with _ h
      subst h
      exact { hs with tapePosition := hpos, streamEnd := nofun }
    · rw [fuFrame_inner_blank (s := passFrame s) hf' h0] at h
      cases h

theorem fuFrame_sound (f : Frame) {s : State} (hpos : s.ipos < s.tape.length) : Sound s (fuFrame f (passFrame s)) := by
  have hp : Steady s (passFrame s) := ⟨rfl, Nat.le_succ _⟩
  refine (fuFrame_steady f (passFrame s)).mono (fun r t hx ht => ?_) fun t ht => ?_
  · exact ⟨hp.trans ht, by rw [fuFrame_onlyFu hx]; rfl, fuFrame_units hpos hx⟩
  · exact { ht with toSteady := hp.trans ht.toSteady }

/-- At the end of the stream nothing is consumed (R134). -/
theorem fuAtEnd_sound {s : State} (hend : s.tape.length ≤ s.ipos) : Sound s (fuAtEnd s) := by
  unfold fuAtEnd
  split
  · refine sound_done _ ⟨⟨rfl, Nat.le_refl _⟩, rfl, fun h => ?_⟩
    exact { h with streamEnd := fun _ => Nat.le_antisymm h.tapePosition hend }
  · exact sound_raised (raised_raise s nofun rfl)

theorem readFrames_sound : ∀ {fs : List Frame} {s : State}, restOfTape s = fs → Sound s (readFrames fs s)
  | [], s, h => sound_bind (fuAtEnd_sound (List.drop_eq_nil_iff.1 h)) fun _ t _ => sound_done _ (.refl t)
  | f :: fs, s, h => by
    have hpos : s.ipos < s.tape.length := by
      by_contra hn
      have he : restOfTape s = [] := List.drop_eq_nil_iff.2 (by omega)
      rw [h] at he
      cases he
    refine sound_bind (fuFrame_sound f hpos) fun r t hx => ?_
    cases r with
    | some p => exact sound_done _ (.refl t)
    | none =>
      have ht : restOfTape t = fs := by
        have htape : t.tape = s.tape := by rw [fuFrame_onlyFu hx]; rfl
        have hd : restOfTape s = s.tape[s.ipos] :: s.tape.drop (s.ipos + 1) := List.drop_eq_getElem_cons hpos
        rw [restOfTape, htape, fuFrame_ipos hx]
        exact (List.cons.inj (hd.symm.trans h)).2
      exact readFrames_sound ht

theorem fuRead_sound (s : State) : Sound s (fuRead s) := readFrames_sound rfl

theorem readBlockWord_sound (s : State) : Sound s (readBlockWord s) :=
  sound_bind (fuRead_sound s) fun r t _ =>
    match r with
    | .word _ _ => sound_done _ (.refl t)
    | .endOfStream _ => sound_raised (raised_raise t nofun rfl)

theorem readBlockWord_blockRegs {s t : State} {r : BlockWord} (h : readBlockWord s = .done r t) :
    blockRegs t = blockRegs s := (readBlockWord_onlyFu h).blockRegs

/-! ### CS and NC -/

theorem csVerify_sound (e c : Word) (j : Option Nat) (s : State) : Sound s (csVerify e c j s) := by
  rw [csVerify_eq]
  split
  · exact sound_done _ (.refl s)
  · exact sound_raised (raised_raise s nofun rfl)

theorem csVerify_done {e c : Word} {j : Option Nat} {s t : State} (h : csVerify e c j s = .done () t) : t = s := by
  rw [csVerify_eq] at h
  split at h
  · injection h with _ h
    exact h.symm
  · cases h

theorem nameArticulation_sound (c : BitVec 4) (j : Option Nat) (w : Option Word) (s : State) :
    Sound s (nameArticulation c j w s) := by
  rw [nameArticulation_eq]
  split
  · exact sound_done _ (.refl s)
  · exact sound_raised (raised_raise s nofun rfl)

theorem nameArticulation_done {c : BitVec 4} {j : Option Nat} {w : Option Word} {s t : State} {a : Articulation}
    (h : nameArticulation c j w s = .done a t) : t = s := by
  rw [nameArticulation_eq] at h
  split at h
  · injection h with _ h
    exact h.symm
  · cases h

/-! ### A Notes block -/

theorem quiet_beginNotes (s : State) : Quiet s (beginNotes s) := .of_regs rfl rfl rfl

theorem quiet_takeNotesCount (n : Word) (g : Nat) (s : State) : Quiet s (takeNotesCount n g s) := by
  have hgap : Quiet s (if s.seq = .expectLeaderGap then copyGap g (emit (.gap .leader g) s) else s) := by
    split
    · exact (quiet_emit _ s).trans (quiet_copyGap g _)
    · exact .refl s
  refine hgap.trans (.trans ?_ ((quiet_emit _ _).trans (quiet_copyWord n _)))
  exact .of_regs rfl rfl rfl

theorem noteContent_sound (w : Word) (i j : Nat) (s : State) : Sound s (noteContent w i j s) := by
  unfold noteContent
  split
  · exact sound_done _ (quiet_emit _ s)
  · exact sound_done _ (quiet_emit _ s)
  · exact sound_bind (nameArticulation_sound _ _ _ s) fun _ t _ => sound_done _ (quiet_emit _ t)

theorem takeNotesContent_sound (w : Word) (j : Nat) (s : State) : Sound s (takeNotesContent w j s) := by
  have hstore : Quiet s { s with notes := s.notes.write s.idx w, sumIn := csAdd s.sumIn w } := .of_regs rfl rfl rfl
  refine hstore.sound (sound_bind (noteContent_sound w _ j _) fun wOut t _ => sound_done _ ?_)
  have hsum : Quiet t { t with sumOut := csAdd t.sumOut wOut } := .of_regs rfl rfl rfl
  exact hsum.trans ((quiet_copyWord wOut _).trans (.of_regs rfl rfl rfl))

theorem takeNotesChecksum_sound (c : Word) (j : Nat) (s : State) : Sound s (takeNotesChecksum c j s) :=
  sound_bind (csVerify_sound c _ _ s) fun _ t _ =>
    sound_done _ ((quiet_emit _ t).trans ((quiet_copyWord t.sumOut _).trans (.of_regs rfl rfl rfl)))

theorem notesLoop_sound : ∀ (n : Nat) (s : State), Sound s (notesLoop n s)
  | 0, s => sound_done _ (.refl s)
  | n + 1, s =>
    sound_bind (readBlockWord_sound s) fun r t _ =>
      sound_bind (takeNotesContent_sound r.w r.j t) fun _ u _ => notesLoop_sound n u

theorem parseNotes_sound (s : State) : Sound s (parseNotes s) :=
  (quiet_beginNotes s).sound <| sound_bind (readBlockWord_sound _) fun r t _ =>
    (quiet_takeNotesCount r.w r.g t).sound <| sound_bind (notesLoop_sound _ _) fun _ u _ =>
      sound_bind (readBlockWord_sound u) fun c v _ => takeNotesChecksum_sound c.w c.j v

/-! ### A Bars block -/

theorem quiet_beginBars (s : State) : Quiet s (beginBars s) := .of_regs rfl rfl rfl

theorem takeBarsCount_sound (n : Word) (g j : Nat) (s : State) : Sound s (takeBarsCount n g j s) := by
  unfold takeBarsCount
  split
  · exact sound_raised (raised_raise s nofun rfl)
  · have hgap : Quiet s (copyGap g (emit (.gap .notesBars g) s)) := (quiet_emit _ s).trans (quiet_copyGap g _)
    refine sound_done _ (hgap.trans (.trans ?_ ((quiet_emit _ _).trans (quiet_copyWord n _))))
    exact .of_regs rfl rfl rfl

theorem barContent_sound (w : Word) (i j : Nat) (s : State) : Sound s (barContent w i j s) := by
  unfold barContent
  split
  · exact sound_done _ (quiet_emit _ s)
  · split
    · exact sound_raised (raised_raise s nofun rfl)
    · split
      · exact sound_done _ (quiet_emit _ s)
      · exact sound_stuck s _

theorem takeBarsContent_sound (w : Word) (j : Nat) (s : State) : Sound s (takeBarsContent w j s) := by
  have hsum : Quiet s { s with sumIn := csAdd s.sumIn w } := .of_regs rfl rfl rfl
  exact hsum.sound <| sound_bind (barContent_sound w _ j _) fun _ t _ =>
    sound_done _ ((quiet_copyWord w t).trans (.of_regs rfl rfl rfl))

theorem takeBarsChecksum_sound (c : Word) (j : Nat) (s : State) : Sound s (takeBarsChecksum c j s) :=
  sound_bind (csVerify_sound c _ _ s) fun _ t _ =>
    sound_done _ ((quiet_emit _ t).trans ((quiet_copyWord c _).trans (.of_regs rfl rfl rfl)))

theorem barsLoop_sound : ∀ (n : Nat) (s : State), Sound s (barsLoop n s)
  | 0, s => sound_done _ (.refl s)
  | n + 1, s =>
    sound_bind (readBlockWord_sound s) fun r t _ =>
      sound_bind (takeBarsContent_sound r.w r.j t) fun _ u _ => barsLoop_sound n u

theorem parseBars_sound (s : State) : Sound s (parseBars s) :=
  (quiet_beginBars s).sound <| sound_bind (readBlockWord_sound _) fun r t _ =>
    sound_bind (takeBarsCount_sound r.w r.g r.j t) fun _ u _ => sound_bind (barsLoop_sound _ u) fun _ v _ =>
      sound_bind (readBlockWord_sound v) fun c x _ => takeBarsChecksum_sound c.w c.j x

end Sys2Proof.Machine

/-! SUPPORT. What each part of a block operation writes of the block structure, and that a whole block leaves it as `Live`
asks (R192, R194). -/

namespace Sys2Proof.Machine

/-! ### What a part that completes writes -/

theorem takeNotesCount_blockRegs (n : Word) (g : Nat) (s : State) :
    blockRegs (takeNotesCount n g s) =
      { blockRegs s with seq := .expectNotesBlock, count := n, notesCount := n } := by
  by_cases h : s.seq = .expectLeaderGap <;> simp [takeNotesCount, blockRegs, h]

theorem takeNotesContent_blockRegs {w : Word} {j : Nat} {s t : State} (h : takeNotesContent w j s = .done () t) :
    blockRegs t = { blockRegs s with notes := s.notes.write s.idx w, idx := s.idx + 1 } := by
  obtain ⟨wOut, u, hu, ht⟩ := bind_eq_done.1 h
  obtain ⟨e, rfl⟩ := noteContent_done hu
  injection ht with _ ht
  subst ht
  simp [blockRegs]

theorem takeNotesChecksum_blockRegs {c : Word} {j : Nat} {s t : State} (h : takeNotesChecksum c j s = .done () t) :
    blockRegs t = { blockRegs s with notesValid := true, seq := .expectGap1 } := by
  obtain ⟨_, u, hu, ht⟩ := bind_eq_done.1 h
  obtain rfl := csVerify_done hu
  injection ht with _ ht
  subst ht
  simp [blockRegs]

theorem takeBarsCount_blockRegs {n : Word} {g j : Nat} {s t : State} (h : takeBarsCount n g j s = .done () t) :
    blockRegs t = { blockRegs s with seq := .expectBarsBlock, count := n } := by
  unfold takeBarsCount at h
  split at h
  · cases h
  · injection h with _ h
    subst h
    simp [blockRegs]

theorem takeBarsContent_blockRegs {w : Word} {j : Nat} {s t : State} (h : takeBarsContent w j s = .done () t) :
    blockRegs t = { blockRegs s with idx := s.idx + 1 } := by
  obtain ⟨_, u, hu, ht⟩ := bind_eq_done.1 h
  obtain ⟨e, rfl⟩ := barContent_done hu
  injection ht with _ ht
  subst ht
  simp [blockRegs]

theorem takeBarsChecksum_blockRegs {c : Word} {j : Nat} {p : Bool × Nat} {s t : State}
    (h : takeBarsChecksum c j s = .done p t) :
    blockRegs t = { blockRegs s with notesValid := false, seq := .expectGap2 } := by
  obtain ⟨_, u, hu, ht⟩ := bind_eq_done.1 h
  obtain rfl := csVerify_done hu
  injection ht with _ ht
  subst ht
  simp [blockRegs]

/-! ### The steps of a Notes block -/

/-- A word stored after the cells 0 to `n - 1` defines the cell `n` (R66, R192). -/
theorem Memory.write_keys_next {n : Nat} (v : Word) : ∀ {m : Memory} {k : Nat}, m.map Prod.fst = List.range' k n →
    (m.write (k + n) v).map Prod.fst = List.range' k (n + 1) := by
  induction n with
  | zero =>
    intro m k h
    obtain rfl : m = [] := by simpa using h
    rfl
  | succ n ih =>
    intro m k h
    match m, h with
    | (a, u) :: m, h =>
      obtain ⟨rfl, hm⟩ : a = k ∧ m.map Prod.fst = List.range' (k + 1) n := by
        simpa [List.range'_succ] using h
      have hw := ih hm
      have e : a + (n + 1) = a + 1 + n := by omega
      rw [Memory.write, if_neg (by omega), if_neg (by omega), List.map_cons, e, hw]
      simp [List.range'_succ]

/-- The count word of a Notes block just begun leaves it mid-block, with no cell defined (R192). -/
theorem takeNotesCount_ok (n : Word) (g : Nat) {s : State} (hblk : s.blk = .notes) (hidx : s.idx = 0)
    (hnotes : s.notes = []) (hvalid : s.notesValid = false) :
    (blockRegs (takeNotesCount n g s)).Ok ∧ midNotes (takeNotesCount n g s) ∧ (takeNotesCount n g s).idx = 0 := by
  have h := takeNotesCount_blockRegs n g s
  have hmid : midNotes (takeNotesCount n g s) :=
    ⟨congrArg BlockRegs.seq h, (congrArg BlockRegs.blk h).trans hblk⟩
  refine ⟨?_, hmid, (congrArg BlockRegs.idx h).trans hidx⟩
  rw [h]
  constructor <;> simp [blockRegs, hblk, hidx, hnotes, hvalid]

/-- A content word within the count is stored in the next cell and leaves the Notes block mid-block (R192). -/
theorem takeNotesContent_ok {w : Word} {j : Nat} {s t : State} (h : takeNotesContent w j s = .done () t)
    (hs : (blockRegs s).Ok) (hmid : midNotes s) (hlt : s.idx < s.count.toNat) :
    (blockRegs t).Ok ∧ midNotes t ∧ t.idx = s.idx + 1 ∧ t.count = s.count := by
  have hb := takeNotesContent_blockRegs h
  obtain ⟨hseq, hblk⟩ := hmid
  have hcells : s.notes.map Prod.fst = List.range s.idx := by
    simpa [blockRegs, BlockRegs.mid, hseq, hblk] using hs.notesCells
  have hnext : (s.notes.write s.idx w).map Prod.fst = List.range (s.idx + 1) := by
    rw [List.range_eq_range'] at hcells ⊢
    simpa using Memory.write_keys_next w hcells
  refine ⟨?_, ⟨(congrArg BlockRegs.seq hb).trans hseq, (congrArg BlockRegs.blk hb).trans hblk⟩,
    congrArg BlockRegs.idx hb, congrArg BlockRegs.count hb⟩
  rw [hb]
  exact
    { indexInBlock := hlt
      notesCells := by simpa [blockRegs, BlockRegs.mid, hseq, hblk] using hnext
      notesCounted := hs.notesCounted
      barsBegun := hs.barsBegun
      bufferHeld := hs.bufferHeld }

/-- The checksum word, due when the content is complete, ends the Notes block and hands `NOTES` over (R192). -/
theorem takeNotesChecksum_ok {c : Word} {j : Nat} {s t : State} (h : takeNotesChecksum c j s = .done () t)
    (hs : (blockRegs s).Ok) (hmid : midNotes s) (hall : s.idx = s.count.toNat) :
    (blockRegs t).Ok ∧ t.seq = .expectGap1 := by
  have hb := takeNotesChecksum_blockRegs h
  have hcount : s.notesCount = s.count := hs.notesCounted hmid
  obtain ⟨hseq, hblk⟩ := hmid
  have hcells : s.notes.map Prod.fst = List.range s.count.toNat := by
    simpa [blockRegs, BlockRegs.mid, hseq, hblk, hall] using hs.notesCells
  refine ⟨?_, congrArg BlockRegs.seq hb⟩
  rw [hb]
  exact
    { indexInBlock := hs.indexInBlock
      notesCells := by simpa [blockRegs, BlockRegs.mid, hcount] using hcells
      notesCounted := nofun
      barsBegun := nofun
      bufferHeld := by simp }

/-- The content words of a Notes block, read to the last (R192). -/
theorem notesLoop_ok : ∀ {n : Nat} {s t : State}, notesLoop n s = .done () t → (blockRegs s).Ok → midNotes s →
    s.idx + n = s.count.toNat → (blockRegs t).Ok ∧ midNotes t ∧ t.idx = t.count.toNat
  | 0, s, t, h, hs, hmid, hn => by
    injection h with _ h
    subst h
    exact ⟨hs, hmid, hn⟩
  | n + 1, s, t, h, hs, hmid, hn => by
    obtain ⟨r, u, hr, h⟩ := bind_eq_done.1 h
    obtain ⟨_, v, hv, h⟩ := bind_eq_done.1 h
    have hu := readBlockWord_blockRegs hr
    have hidx : u.idx = s.idx := congrArg BlockRegs.idx hu
    have hcount : u.count = s.count := congrArg BlockRegs.count hu
    have hmidu : midNotes u := ⟨(congrArg BlockRegs.seq hu).trans hmid.1, (congrArg BlockRegs.blk hu).trans hmid.2⟩
    obtain ⟨hvok, hvmid, hvidx, hvcount⟩ := takeNotesContent_ok hv (hu ▸ hs) hmidu (by rw [hidx, hcount]; omega)
    exact notesLoop_ok h hvok hvmid (by rw [hvidx, hvcount, hidx, hcount]; omega)

/-- A whole Notes block, from any state (R192). -/
theorem parseNotes_ok {s t : State} (h : parseNotes s = .done () t) : (blockRegs t).Ok ∧ t.seq = .expectGap1 := by
  obtain ⟨r, u, hr, h⟩ := bind_eq_done.1 h
  obtain ⟨_, v, hv, h⟩ := bind_eq_done.1 h
  obtain ⟨c, x, hc, h⟩ := bind_eq_done.1 h
  have hu := readBlockWord_blockRegs hr
  obtain ⟨hok, hmid, hidx⟩ := takeNotesCount_ok r.w r.g (congrArg BlockRegs.blk hu) (congrArg BlockRegs.idx hu)
    (congrArg BlockRegs.notes hu) (congrArg BlockRegs.notesValid hu)
  obtain ⟨hvok, hvmid, hvall⟩ := notesLoop_ok hv hok hmid (by rw [hidx, Nat.zero_add])
  have hx := readBlockWord_blockRegs hc
  refine takeNotesChecksum_ok h (hx ▸ hvok)
    ⟨(congrArg BlockRegs.seq hx).trans hvmid.1, (congrArg BlockRegs.blk hx).trans hvmid.2⟩ ?_
  have hxidx : x.idx = v.idx := congrArg BlockRegs.idx hx
  have hxcount : x.count = v.count := congrArg BlockRegs.count hx
  rw [hxidx, hxcount, hvall]

/-! ### The steps of a Bars block -/

/-- What `parseBarsBlock` sets before it reads breaks nothing before a Bars block (R194). -/
theorem beginBars_ok {s : State} (hs : (blockRegs s).Ok) (hseq : s.seq = .expectGap1) : (blockRegs (beginBars s)).Ok where
  indexInBlock := Nat.zero_le _
  notesCells := by simpa [blockRegs, BlockRegs.mid, hseq] using hs.notesCells
  notesCounted := by simp [blockRegs, hseq]
  barsBegun _ := rfl
  bufferHeld := hs.bufferHeld

/-- The count word of a Bars block just begun (R194). -/
theorem takeBarsCount_ok {n : Word} {g j : Nat} {s t : State} (h : takeBarsCount n g j s = .done () t)
    (hs : (blockRegs s).Ok) (hseq : s.seq = .expectGap1) (hblk : s.blk = .bars) (hidx : s.idx = 0) :
    (blockRegs t).Ok ∧ t.seq = .expectBarsBlock ∧ t.idx = 0 := by
  have hb := takeBarsCount_blockRegs h
  refine ⟨?_, congrArg BlockRegs.seq hb, (congrArg BlockRegs.idx hb).trans hidx⟩
  rw [hb]
  exact
    { indexInBlock := by simp [blockRegs, hidx]
      notesCells := by simpa [blockRegs, BlockRegs.mid, hseq] using hs.notesCells
      notesCounted := nofun
      barsBegun := fun _ => hblk
      bufferHeld := by simpa [blockRegs, hseq] using hs.bufferHeld }

/-- A content word within the count of a Bars block (R194). -/
theorem takeBarsContent_ok {w : Word} {j : Nat} {s t : State} (h : takeBarsContent w j s = .done () t)
    (hs : (blockRegs s).Ok) (hseq : s.seq = .expectBarsBlock) (hlt : s.idx < s.count.toNat) :
    (blockRegs t).Ok ∧ t.seq = .expectBarsBlock ∧ t.idx = s.idx + 1 ∧ t.count = s.count := by
  have hb := takeBarsContent_blockRegs h
  refine ⟨?_, (congrArg BlockRegs.seq hb).trans hseq, congrArg BlockRegs.idx hb, congrArg BlockRegs.count hb⟩
  rw [hb]
  exact
    { indexInBlock := hlt
      notesCells := by simpa [blockRegs, BlockRegs.mid, hseq] using hs.notesCells
      notesCounted := hs.notesCounted
      barsBegun := hs.barsBegun
      bufferHeld := hs.bufferHeld }

/-- The checksum word ends the Bars block and gives `NOTES` up (R194). -/
theorem takeBarsChecksum_ok {c : Word} {j : Nat} {p : Bool × Nat} {s t : State} (h : takeBarsChecksum c j s = .done p t)
    (hs : (blockRegs s).Ok) (hseq : s.seq = .expectBarsBlock) : (blockRegs t).Ok ∧ t.seq = .expectGap2 := by
  have hb := takeBarsChecksum_blockRegs h
  refine ⟨?_, congrArg BlockRegs.seq hb⟩
  rw [hb]
  exact
    { indexInBlock := hs.indexInBlock
      notesCells := by simpa [blockRegs, BlockRegs.mid, hseq] using hs.notesCells
      notesCounted := nofun
      barsBegun := fun _ => hs.barsBegun (.inl hseq)
      bufferHeld := by simp }

/-- The content words of a Bars block, read to the last (R194). -/
theorem barsLoop_ok : ∀ {n : Nat} {s t : State}, barsLoop n s = .done () t → (blockRegs s).Ok →
    s.seq = .expectBarsBlock → s.idx + n = s.count.toNat → (blockRegs t).Ok ∧ t.seq = .expectBarsBlock
  | 0, s, t, h, hs, hseq, _ => by
    injection h with _ h
    subst h
    exact ⟨hs, hseq⟩
  | n + 1, s, t, h, hs, hseq, hn => by
    obtain ⟨r, u, hr, h⟩ := bind_eq_done.1 h
    obtain ⟨_, v, hv, h⟩ := bind_eq_done.1 h
    have hu := readBlockWord_blockRegs hr
    have hidx : u.idx = s.idx := congrArg BlockRegs.idx hu
    have hcount : u.count = s.count := congrArg BlockRegs.count hu
    obtain ⟨hvok, hvseq, hvidx, hvcount⟩ := takeBarsContent_ok hv (hu ▸ hs) ((congrArg BlockRegs.seq hu).trans hseq)
      (by rw [hidx, hcount]; omega)
    exact barsLoop_ok h hvok hvseq (by rw [hvidx, hvcount, hidx, hcount]; omega)

/-- A whole Bars block, where one is due (R194). -/
theorem parseBars_ok {p : Bool × Nat} {s t : State} (h : parseBars s = .done p t) (hs : (blockRegs s).Ok)
    (hseq : s.seq = .expectGap1) : (blockRegs t).Ok ∧ t.seq = .expectGap2 := by
  obtain ⟨r, u, hr, h⟩ := bind_eq_done.1 h
  obtain ⟨_, v, hv, h⟩ := bind_eq_done.1 h
  obtain ⟨_, x, hx, h⟩ := bind_eq_done.1 h
  obtain ⟨c, y, hy, h⟩ := bind_eq_done.1 h
  have hu := readBlockWord_blockRegs hr
  obtain ⟨hvok, hvseq, hvidx⟩ := takeBarsCount_ok hv (hu ▸ beginBars_ok hs hseq)
    ((congrArg BlockRegs.seq hu).trans hseq) (congrArg BlockRegs.blk hu) (congrArg BlockRegs.idx hu)
  obtain ⟨hxok, hxseq⟩ := barsLoop_ok hx hvok hvseq (by rw [hvidx, Nat.zero_add])
  have hyb := readBlockWord_blockRegs hy
  exact takeBarsChecksum_ok h (hyb ▸ hxok) ((congrArg BlockRegs.seq hyb).trans hxseq)

end Sys2Proof.Machine

/-! SUPPORT. What a run and what each instruction can do, said once: the guards an instruction that answers a next state has
passed, and how its body changes the state. -/

namespace Sys2Proof.Machine

variable {α : Type}

/-! ### Runs -/

theorem steady_nextVoice (g : Nat) (s : State) : Steady s (nextVoice g s) :=
  ⟨by simp [nextVoice, hostRegs], by simp [nextVoice]⟩

theorem endOfTape_steady (g : Nat) (s : State) : (endOfTape g s).Ends (fun _ => Steady s) (Steady s) :=
  (fuRead_sound s).steady.bind fun _ t _ ht =>
    ht.trans ⟨by simp [setDone, hostRegs], by simp [setDone]⟩

theorem afterBars_steady (p : Bool × Nat) (s : State) : (afterBars p s).Ends (fun _ => Steady s) (Steady s) := by
  unfold afterBars
  split
  · split
    · exact (raised_raise (k := .unexpectedTrailingData) s nofun rfl).toSteady
    · exact steady_nextVoice p.2 s
  · exact endOfTape_steady p.2 s

theorem runVoice_steady (s : State) : (runVoice s).Ends (fun _ => Steady s) (Steady s) :=
  (parseNotes_sound s).steady.bind fun _ t _ ht =>
    ((parseBars_sound t).steady.mono (fun _ _ _ => ht.trans) (fun _ => ht.trans)).bind fun p u _ hu =>
      (afterBars_steady p u).mono (fun _ _ _ => hu.trans) (fun _ => hu.trans)

theorem runVoices_steady : ∀ (n : Nat) (s : State), (runVoices n s).Ends (fun _ => Steady s) (Steady s)
  | 0, s => .refl s
  | n + 1, s => (runVoice_steady s).bind fun o t _ ht =>
    match o with
    | some _ => ht
    | none => (runVoices_steady n t).mono (fun _ _ _ => ht.trans) (fun _ => ht.trans)

/-! ### The end of an operation -/

/-- A property of how the body ends, which putting the result in place keeps, is one of the next state. -/
theorem finish_ends {f : α → Result} {x : Act α} {P : State → Prop} {t : State} (hx : x.Ends (fun _ => P) P)
    (hr : ∀ r s, P s → P (setResult r s)) (h : finish f x = .next t) : P t := by
  rcases finish_eq_next.1 h with ⟨a, u, hu, rfl⟩ | ⟨u, hu, rfl⟩
  · exact hr _ u (hx.of_done hu)
  · exact hr _ u (hx.of_raised hu)

theorem Steady.setResult {s t : State} (r : Result) (h : Steady s t) : Steady s (setResult r t) :=
  h.trans (quiet_setResult r t).toSteady

theorem finish_steady {f : α → Result} {x : Act α} {s t : State} (hx : x.Ends (fun _ => Steady s) (Steady s))
    (h : finish f x = .next t) : Steady s t := finish_ends hx (fun r _ => Steady.setResult r) h

theorem startRun_steady {s t : State} (h : startRun s = .next t) : Steady s t := by
  have hr : Steady s (setRunning s) := ⟨rfl, Nat.le_refl _⟩
  exact hr.trans (finish_steady (runVoices_steady _ _) h)

/-! ### The operations of the units -/

/-- The operations of FU, CS, NC, TE and `barSlice`, which a host may issue outside a run too (R286, R289). -/
def unitOperation : Instr → Bool
  | .fuStep | .fuEnd | .readWord | .peekGap | .decodeFrame .. | .add .. | .verify .. | .classify _ | .decode _
  | .pitchInfo _ | .articulationName _ | .decodeTempo _ | .encodeTempo _ | .encodeNote .. | .barSlice _ | .writeWord _
  | .writeGap _ | .encodeFrame _ => true
  | _ => false

/-- What such an operation does: quiet work that leaves the block structure alone, or a fault. -/
inductive UnitWork (s t : State) : Prop where
  | completed (quiet : Quiet s t) (block : blockRegs t = blockRegs s)
  | raised (fault : Raised s t)

theorem UnitWork.steady {s t : State} : UnitWork s t → Steady s t
  | .completed q _ => q.toSteady
  | .raised r => r.toSteady

theorem acceptUnit_work {s t : State} {k : State → Out} (h : acceptUnit s k = .next t)
    (hk : k (drive s) = .next t → UnitWork (drive s) t) : Ready s ∧ UnitWork s t := by
  obtain ⟨hf, hd, h⟩ := acceptUnit_eq_next.1 h
  refine ⟨⟨hf, hd⟩, ?_⟩
  cases hk h with
  | completed q b => exact .completed ((quiet_drive s).trans q) b
  | raised r => exact .raised ((quiet_drive s).raised r)

/-- A body that only puts a result in place, after quiet work outside the block structure. -/
theorem next_work {s t u : State} {r : Result} (hq : Quiet s u) (hb : blockRegs u = blockRegs s)
    (h : (.next (setResult r u) : Out) = .next t) : UnitWork s t := by
  injection h with h
  subst h
  exact .completed (hq.trans (quiet_setResult r u)) hb

theorem finish_work {f : α → Result} {x : Act α} {s t : State} (hx : Sound s x)
    (hb : ∀ a u, x = .done a u → blockRegs u = blockRegs s) (h : finish f x = .next t) : UnitWork s t := by
  rcases finish_eq_next.1 h with ⟨a, u, hu, rfl⟩ | ⟨u, hu, rfl⟩
  · exact .completed ((hx.of_done hu).trans (quiet_setResult _ u)) (hb a u hu)
  · have hr : Raised s u := hx.of_raised hu
    exact .raised { hr with toSteady := hr.toSteady.setResult _ }

theorem fuStep_work {s t : State} (h : execFuStep s = .next t) : Ready s ∧ UnitWork s t :=
  acceptUnit_work h fun h => by
    cases hn : nextFrame (drive s) with
    | none => simp [hn] at h
    | some f =>
      simp only [hn] at h
      obtain ⟨hpos, _⟩ := List.getElem?_eq_some_iff.1 hn
      exact finish_work (fuFrame_sound f hpos) (fun _ _ hx => (fuFrame_onlyFu hx).blockRegs) h

theorem fuEnd_work {s t : State} (h : execFuEnd s = .next t) : Ready s ∧ UnitWork s t :=
  acceptUnit_work h fun h => by
    cases hn : nextFrame (drive s) with
    | some f => simp [hn] at h
    | none =>
      simp only [hn] at h
      refine finish_work (fuAtEnd_sound (List.getElem?_eq_none_iff.1 hn)) (fun a u hx => ?_) h
      unfold fuAtEnd at hx
      split at hx
      · injection hx with _ hx
        subst hx
        rfl
      · cases hx

theorem verify_work {e c : Word} {s t : State} (h : execVerify e c s = .next t) : Ready s ∧ UnitWork s t :=
  acceptUnit_work h fun h => by
    have hq : Quiet (drive s) (if e = c then drive s else { drive s with freeDraws := (drive s).freeDraws + 1 }) := by
      split <;> exact .of_regs rfl rfl rfl
    refine finish_work (hq.sound (csVerify_sound e c _ _)) (fun _ u hx => ?_) h
    rw [csVerify_done hx]
    split <;> rfl

theorem articulationName_work {c : BitVec 4} {s t : State} (h : execArticulationName c s = .next t) :
    Ready s ∧ UnitWork s t :=
  acceptUnit_work h fun h => by
    have hq : Quiet (drive s)
        (if (articulation c).isSome then drive s else { drive s with freeDraws := (drive s).freeDraws + 1 }) := by
      split <;> exact .of_regs rfl rfl rfl
    refine finish_work (hq.sound (nameArticulation_sound c _ _ _)) (fun _ u hx => ?_) h
    rw [nameArticulation_done hx]
    split <;> rfl

theorem barSlice_work {k : Word} {s t : State} (h : execBarSlice k s = .next t) : Ready s ∧ UnitWork s t :=
  acceptUnit_work h fun h => by
    obtain ⟨_, h⟩ := require_eq_next.1 h
    split at h
    · exact next_work (.refl _) rfl h
    · cases h

/-- Every operation of a unit that answers a next state was accepted and did a unit's work. -/
theorem exec_unit_work {i : Instr} {s t : State} (hi : unitOperation i = true) (h : exec i s = .next t) :
    Ready s ∧ UnitWork s t := by
  unfold exec at h
  cases i with
  | fuStep => exact fuStep_work h
  | fuEnd => exact fuEnd_work h
  | readWord =>
    refine acceptUnit_work h fun h => ?_
    obtain ⟨_, h⟩ := require_eq_next.1 h
    obtain ⟨_, h⟩ := require_eq_next.1 h
    exact finish_work (fuRead_sound _) (fun _ _ hx => (readFrames_onlyFu hx).blockRegs) h
  | peekGap =>
    refine acceptUnit_work h fun h => ?_
    obtain ⟨_, h⟩ := require_eq_next.1 h
    exact next_work (.refl _) rfl h
  | verify e c => exact verify_work h
  | articulationName c => exact articulationName_work h
  | barSlice k => exact barSlice_work h
  | writeWord w =>
    refine acceptUnit_work h fun h => ?_
    obtain ⟨_, h⟩ := require_eq_next.1 h
    exact next_work (quiet_putWord w _) rfl h
  | writeGap n =>
    refine acceptUnit_work h fun h => ?_
    obtain ⟨_, h⟩ := require_eq_next.1 h
    exact next_work (quiet_putGap n _) rfl h
  | decodeFrame f0 f1 f2 => exact acceptUnit_work h (next_work (.refl _) rfl)
  | add a b => exact acceptUnit_work h (next_work (.refl _) rfl)
  | classify w => exact acceptUnit_work h (next_work (.refl _) rfl)
  | decode w => exact acceptUnit_work h (next_work (.refl _) rfl)
  | pitchInfo p => exact acceptUnit_work h (next_work (.refl _) rfl)
  | decodeTempo w => exact acceptUnit_work h (next_work (.refl _) rfl)
  | encodeTempo n => exact acceptUnit_work h (next_work (.refl _) rfl)
  | encodeNote p d a tr hi => exact acceptUnit_work h (next_work (.refl _) rfl)
  | encodeFrame w => exact acceptUnit_work h (next_work (.refl _) rfl)
  | _ => cases hi

/-! ### The guards of the other instructions -/

/-- The word that an item of the content of a block is (R95 to R99, R103). -/
def contentOf : Instr → Option Word
  | .sep => some Config.sep
  | .tempo t => some (tempoWord t)
  | .note hi t am q pl d => some (noteWord hi t am q pl d)
  | .index k => some k
  | _ => none

/-- An item of the content that answers a next state was accepted and did what its word does at its position. -/
theorem exec_content {i : Instr} {w : Word} {s t : State} (hi : contentOf i = some w) (h : exec i s = .next t) :
    Ready s ∧ contentWord w s = .next t := by
  cases i with
  | sep =>
    cases hi
    obtain ⟨hf, hd, h⟩ := accept_eq_next.1 h
    obtain ⟨_, h⟩ := require_eq_next.1 h
    exact ⟨⟨hf, hd⟩, h⟩
  | tempo _ | note _ _ _ _ _ _ | index _ =>
    cases hi
    obtain ⟨hf, hd, h⟩ := accept_eq_next.1 h
    obtain ⟨_, h⟩ := require_eq_next.1 h
    obtain ⟨_, h⟩ := require_eq_next.1 h
    exact ⟨⟨hf, hd⟩, h⟩
  | _ => cases hi

/-- A content word has a meaning at two positions only (R94). -/
theorem contentWord_next {w : Word} {s t : State} (h : contentWord w s = .next t) :
    (position s = some .notesContent ∧
      finish (fun _ => Result.none) (takeNotesContent w (lastIndex s) s) = .next t) ∨
    (position s = some .barsContent ∧
      finish (fun _ => Result.none) (takeBarsContent w (lastIndex s) s) = .next t) := by
  unfold contentWord at h
  split at h
  · exact .inl ⟨‹_›, h⟩
  · exact .inr ⟨‹_›, h⟩
  · cases h

/-- So has a checksum word (R94). -/
theorem execChecksum_next {c : Word} {s t : State} (h : execChecksum c s = .next t) :
    Ready s ∧
    ((position s = some .notesChecksum ∧
      finish (fun _ => Result.none) (takeNotesChecksum c (lastIndex s) s) = .next t) ∨
    (position s = some .barsChecksum ∧
      finish (fun p => Result.peek p.1 p.2) (takeBarsChecksum c (lastIndex s) s) = .next t)) := by
  obtain ⟨hf, hd, h⟩ := accept_eq_next.1 h
  obtain ⟨_, h⟩ := require_eq_next.1 h
  refine ⟨⟨hf, hd⟩, ?_⟩
  split at h
  · exact .inl ⟨‹_›, h⟩
  · exact .inr ⟨‹_›, h⟩
  · cases h

/-- A count word begins a Notes block or a Bars block, by `SEQ` (R192, R194; log 31). -/
theorem execCount_next {n : Word} {s t : State} (h : execCount n s = .next t) :
    Ready s ∧
    (t = setResult .none (takeNotesCount n s.wordGap (beginNotes s)) ∨
    (s.seq = .expectGap1 ∧
      finish (fun _ => Result.none) (takeBarsCount n s.wordGap (lastIndex s) (beginBars s)) = .next t)) := by
  obtain ⟨hf, hd, h⟩ := accept_eq_next.1 h
  obtain ⟨_, h⟩ := require_eq_next.1 h
  refine ⟨⟨hf, hd⟩, ?_⟩
  split at h
  · injection h with h
    exact .inl h.symm
  · split at h
    · exact .inr ⟨‹_›, (require_eq_next.1 h).2⟩
    · cases h

theorem execParseNotesBlock_next {s t : State} (h : execParseNotesBlock s = .next t) :
    Ready s ∧ finish (fun _ => Result.none) (parseNotes s) = .next t := by
  obtain ⟨hf, hd, h⟩ := accept_eq_next.1 h
  simp only [require_eq_next] at h
  obtain ⟨_, _, _, h⟩ := h
  exact ⟨⟨hf, hd⟩, h⟩

theorem execParseTempoSubstitution_next {s t : State} (h : execParseTempoSubstitution s = .next t) :
    execParseNotesBlock s = .next t := by
  obtain ⟨_, _, h⟩ := accept_eq_next.1 h
  exact (require_eq_next.1 h).2

theorem execParseBarsBlock_next {s t : State} (h : execParseBarsBlock s = .next t) :
    Ready s ∧ s.seq = .expectGap1 ∧ finish (fun p => Result.peek p.1 p.2) (parseBars s) = .next t := by
  obtain ⟨hf, hd, h⟩ := accept_eq_next.1 h
  simp only [require_eq_next] at h
  obtain ⟨_, hseq, _, _, h⟩ := h
  exact ⟨⟨hf, hd⟩, hseq, h⟩

/-- A configuration operation answers the state it writes, outside a run (R317). -/
theorem configure_next {s u t : State} (h : configure s u = .next t) :
    Ready s ∧ s.status.running = false ∧ t = setResult .none u := by
  obtain ⟨hf, hd, h⟩ := accept_eq_next.1 h
  obtain ⟨hr, h⟩ := require_eq_next.1 h
  injection h with h
  exact ⟨⟨hf, hd⟩, hr, h.symm⟩

/-- The guards of `start`, `runDecoder` and `runTweak` (R264), which differ in the state `u` their run begins with. -/
theorem run_next {s u t : State} (h : (accept s <| require (atReset s) .notAtReset <| startRun u) = .next t) :
    Ready s ∧ atReset s ∧ startRun u = .next t := by
  obtain ⟨hf, hd, h⟩ := accept_eq_next.1 h
  obtain ⟨hr, h⟩ := require_eq_next.1 h
  exact ⟨⟨hf, hd⟩, hr, h⟩

theorem atReset_not_running {s : State} (h : atReset s) : s.status.running = false := by
  rw [h]
  rfl

/-! ### What every instruction but `coreReset` leaves unchanged -/

/-- No instruction but `coreReset` writes the tape or the level or moves `ipos` back, and during a run none writes the
configuration. -/
structure Framed (s t : State) : Prop where
  tape : t.tape = s.tape
  level : t.level = s.level
  ipos : s.ipos ≤ t.ipos
  host : s.status.running = true → hostRegs t = hostRegs s

theorem Steady.framed {s t : State} (h : Steady s t) : Framed s t :=
  ⟨congrArg HostRegs.tape h.host, congrArg HostRegs.level h.host, h.ipos, fun _ => h.host⟩

/-- Where no run is in progress, the configuration may be written first. -/
theorem Steady.framed_of_idle {s u t : State} (h : Steady u t) (hr : s.status.running = false) (htape : u.tape = s.tape)
    (hlevel : u.level = s.level) (hipos : u.ipos = s.ipos) : Framed s t where
  tape := (congrArg HostRegs.tape h.host).trans htape
  level := (congrArg HostRegs.level h.host).trans hlevel
  ipos := hipos ▸ h.ipos
  host hrun := by
    rw [hr] at hrun
    cases hrun

theorem configure_framed {s u t : State} (h : configure s u = .next t) (htape : u.tape = s.tape)
    (hlevel : u.level = s.level) (hipos : u.ipos = s.ipos) : Framed s t := by
  obtain ⟨_, hr, rfl⟩ := configure_next h
  exact ((Steady.refl u).setResult _).framed_of_idle hr htape hlevel hipos

theorem run_framed {s u t : State} (h : (accept s <| require (atReset s) .notAtReset <| startRun u) = .next t)
    (htape : u.tape = s.tape) (hlevel : u.level = s.level) (hipos : u.ipos = s.ipos) : Framed s t := by
  obtain ⟨_, hr, h⟩ := run_next h
  exact (startRun_steady h).framed_of_idle (atReset_not_running hr) htape hlevel hipos

theorem frameItem_framed {f : Frame} {s t : State}
    (h : acceptUnit s (fun s => finish frameResult (fuFrame f s)) = .next t) : Framed s t := by
  obtain ⟨_, _, h⟩ := acceptUnit_eq_next.1 h
  have hx := (fuFrame_steady f (drive s)).mono (fun _ _ _ ht => ht) fun _ ht => ht.toSteady
  exact ((quiet_drive s).toSteady.trans (finish_steady hx h)).framed

theorem contentWord_framed {w : Word} {s t : State} (h : contentWord w s = .next t) : Framed s t := by
  rcases contentWord_next h with ⟨_, h⟩ | ⟨_, h⟩
  · exact (finish_steady (takeNotesContent_sound w _ s).steady h).framed
  · exact (finish_steady (takeBarsContent_sound w _ s).steady h).framed

theorem parseNotesBlock_framed {s t : State} (h : execParseNotesBlock s = .next t) : Framed s t :=
  (finish_steady (parseNotes_sound s).steady (execParseNotesBlock_next h).2).framed

theorem count_framed {n : Word} {s t : State} (h : execCount n s = .next t) : Framed s t := by
  obtain ⟨_, rfl | ⟨_, h⟩⟩ := execCount_next h
  · exact (((quiet_beginNotes s).trans (quiet_takeNotesCount n _ _)).toSteady.setResult _).framed
  · exact ((quiet_beginBars s).toSteady.trans (finish_steady (takeBarsCount_sound n _ _ _).steady h)).framed

theorem checksum_framed {c : Word} {s t : State} (h : execChecksum c s = .next t) : Framed s t := by
  obtain ⟨_, ⟨_, h⟩ | ⟨_, h⟩⟩ := execChecksum_next h
  · exact (finish_steady (takeNotesChecksum_sound c _ s).steady h).framed
  · exact (finish_steady (takeBarsChecksum_sound c _ s).steady h).framed

theorem exec_framed {i : Instr} {s t : State} (hi : i ≠ .coreReset) (h : exec i s = .next t) : Framed s t := by
  cases hu : unitOperation i with
  | true => exact (exec_unit_work hu h).2.steady.framed
  | false =>
    cases i with
    | coreReset => exact absurd rfl hi
    | setMode _ | setTempo _ _ | setGapLen _ => exact configure_framed h rfl rfl rfl
    | start | runDecoder | runTweak => exact run_framed h rfl rfl rfl
    | parseNotesBlock => exact parseNotesBlock_framed h
    | parseTempoSubstitution => exact parseNotesBlock_framed (execParseTempoSubstitution_next h)
    | parseBarsBlock =>
      obtain ⟨_, _, h⟩ := execParseBarsBlock_next h
      exact (finish_steady (parseBars_sound s).steady h).framed
    | bin _ _ | blank _ => exact frameItem_framed h
    | sep | tempo _ | note _ _ _ _ _ _ | index _ => exact contentWord_framed (exec_content rfl h).2
    | count n => exact count_framed h
    | checksum c => exact checksum_framed h
    | _ => cases hu

/-! ### Refusal -/

/-- Every instruction but `coreReset` asks first that no fault is held and the run has not ended (R52, U20). -/
theorem exec_eq_accept {i : Instr} (hi : i ≠ .coreReset) (s : State) : ∃ k, exec i s = accept s k := by
  cases i with
  | coreReset => exact absurd rfl hi
  | _ => exact ⟨_, rfl⟩

/-- After a completed run every operation guarded by `accept` is refused (U20). -/
theorem accept_of_ended {s : State} (k : Out) (hf : s.fault = 0#4) (hd : s.status.done = true) :
    accept s k = .refused .runEnded := by
  simp [accept, hf, hd]

end Sys2Proof.Machine

/-! SUPPORT. The invariant of the machine: it holds after reset and every step keeps it. While the machine goes on it is one
condition on the parts of the state (`Alive`), which every part of a block and every pass of a run keeps; how a step leaves
that condition is a fault or the end of the run. -/

namespace Sys2Proof.Machine

variable {α : Type}

/-! ### The invariant while the machine goes on -/

/-- The clauses about the block structure while the machine goes on. -/
structure Sequenced (s : State) : Prop where
  ok : (blockRegs s).Ok
  notFaulted : s.seq ≠ .faulted
  notEnded : s.seq ≠ .endOfTape
  blockWhole : s.level = .operation → ¬ midNotes s

/-- The invariant where no fault is held and the run has not ended. -/
structure Alive (s : State) : Prop where
  units : (unitRegs s).Ok
  block : Sequenced s
  fault : s.fault = 0#4
  finfo : s.finfo = {}
  done : s.status.done = false
  outValid : s.status.outValid = false

theorem Alive.inv {s : State} (h : Alive s) : Inv s where
  live _ := (live_iff s).2 ⟨h.units, h.block.ok⟩
  blockWhole := h.block.blockWhole
  faultCode := by simp [h.fault]
  faultedSeq := by simp [h.fault, h.block.notFaulted]
  endedSeq := by simp [h.done, h.block.notEnded]
  faultFlags hf := absurd h.fault hf
  doneFlags hd := by simp [h.done] at hd
  outValidDone ho := by simp [h.outValid] at ho
  finfoEmpty := by simp [h.fault, h.finfo]

theorem Inv.alive {s : State} (h : Inv s) (hr : Ready s) : Alive s := by
  obtain ⟨hf, hd⟩ := hr
  obtain ⟨hu, hb⟩ := (live_iff s).1 (h.live hf)
  refine ⟨hu, ⟨hb, ?_, ?_, h.blockWhole⟩, hf, h.finfoEmpty.2 hf, hd, ?_⟩
  · exact fun hs => h.faultedSeq.1 hs hf
  · intro hs
    have := h.endedSeq.1 hs
    simp [hd] at this
  · by_contra ho
    have := h.outValidDone (by simpa using ho)
    simp [hd] at this

/-- Where `SEQ` is between two blocks or in a Bars block, the rest is the block structure. -/
theorem Sequenced.of_seq {s : State} {q : Seq} (hok : (blockRegs s).Ok) (hs : s.seq = q) (hf : q ≠ .faulted)
    (he : q ≠ .endOfTape) (hn : q ≠ .expectNotesBlock) : Sequenced s :=
  ⟨hok, hs ▸ hf, hs ▸ he, fun _ hm => hn (hs.symm.trans hm.1)⟩

/-- Inside a Notes block a step takes a word. -/
theorem Sequenced.of_midNotes {s : State} (hok : (blockRegs s).Ok) (hm : midNotes s) (hl : s.level ≠ .operation) :
    Sequenced s where
  ok := hok
  notFaulted hs := by simp [hm.1] at hs
  notEnded hs := by simp [hm.1] at hs
  blockWhole h := absurd h hl

/-- Quiet work, after which the block structure is in order, keeps the machine going. -/
theorem Alive.quiet {s t : State} (h : Alive s) (hq : Quiet s t) (hb : Sequenced t) : Alive t where
  units := hq.units h.units
  block := hb
  fault := (congrArg FlagRegs.fault hq.flags).trans h.fault
  finfo := (congrArg FlagRegs.finfo hq.flags).trans h.finfo
  done := hq.status ▸ h.done
  outValid := hq.status ▸ h.outValid

/-- Quiet work outside the block structure keeps the machine going. -/
theorem Alive.quiet_same {s t : State} (h : Alive s) (hq : Quiet s t) (hb : blockRegs t = blockRegs s) : Alive t := by
  have hseq : t.seq = s.seq := congrArg BlockRegs.seq hb
  have hblk : t.blk = s.blk := congrArg BlockRegs.blk hb
  refine h.quiet hq ⟨hb ▸ h.block.ok, hseq ▸ h.block.notFaulted, hseq ▸ h.block.notEnded, fun hl hm => ?_⟩
  exact h.block.blockWhole (hq.level ▸ hl) ⟨hseq ▸ hm.1, hblk ▸ hm.2⟩

/-- Fault entry meets the invariant (R281). -/
theorem Alive.raised {s t : State} (h : Alive s) (hr : Raised s t) : Inv t := by
  obtain ⟨hlow, hhigh⟩ := hr.fault
  have hne : t.fault ≠ 0#4 := fun h0 => by simp [h0] at hlow
  have hst : t.status = { running := false, done := false, outValid := false } := by
    simp [hr.status, h.done, h.outValid]
  have hinfo : t.finfo ≠ {} := fun h0 => by
    have := hr.finfo
    simp [h0] at this
  exact
    { live := fun h0 => absurd h0 hne
      blockWhole := by simp [hr.seq]
      faultCode := hhigh
      faultedSeq := by simp [hr.seq, hne]
      endedSeq := by simp [hr.seq, hst]
      faultFlags := fun _ => hst
      doneFlags := by simp [hst]
      outValidDone := by simp [hst]
      finfoEmpty := by simp [hne, hinfo] }

/-- The end of a run after quiet work meets the invariant: `DONE` with the flags of R51 (R232). -/
theorem Alive.inv_setDone {s u : State} (h : Alive s) (hq : Quiet s u) (hb : (blockRegs u).Ok)
    (hs : u.seq = .endOfTape) : Inv (setDone u) := by
  have hfault : u.fault = 0#4 := (congrArg FlagRegs.fault hq.flags).trans h.fault
  have hfinfo : u.finfo = {} := (congrArg FlagRegs.finfo hq.flags).trans h.finfo
  exact
    { live := fun _ => (live_iff _).2 ⟨hq.units h.units, hb⟩
      blockWhole := fun _ hm => absurd (hs.symm.trans hm.1) nofun
      faultCode := by simp [setDone, hfault]
      faultedSeq := by simp [setDone, hs, hfault]
      endedSeq := by simp [setDone, hs]
      faultFlags := fun hf => absurd hfault hf
      doneFlags := fun _ => ⟨rfl, rfl⟩
      outValidDone := fun _ => rfl
      finfoEmpty := by simp [setDone, hfault, hfinfo] }

/-- The result is no register of the invariant. -/
theorem Inv.setResult (r : Result) {s : State} (h : Inv s) : Inv (setResult r s) :=
  { h with live := fun hf => { h.live hf with } }

/-- Neither are the operations still to come at the port. -/
theorem Inv.takePort (bs : List Byte) {s : State} (h : Inv s) : Inv { s with port := bs } :=
  { h with live := fun hf => { h.live hf with } }

theorem finish_inv {f : α → Result} {x : Act α} {t : State} (hx : x.Ends (fun _ => Inv) Inv)
    (h : finish f x = .next t) : Inv t := finish_ends hx (fun r _ => Inv.setResult r) h

/-- An operation whose body is sound and, where it completes, leaves the block structure in order, keeps the invariant. -/
theorem Alive.finish {f : α → Result} {x : Act α} {s t : State} (h : Alive s) (hx : Sound s x)
    (hb : ∀ a u, x = .done a u → Quiet s u → Sequenced u) (ht : finish f x = .next t) : Inv t :=
  finish_inv (hx.mono (fun a u hu hq => (h.quiet hq (hb a u hu hq)).inv) (fun _ => h.raised)) ht

theorem Alive.unitWork {s t : State} (h : Alive s) : UnitWork s t → Inv t
  | .completed q b => (h.quiet_same q b).inv
  | .raised r => h.raised r

/-! ### Reset and configuration -/

/-- Reset, from any state (R53, R260). -/
theorem alive_resetRegisters (s : State) : Alive (resetRegisters s) where
  units :=
    { tapePosition := Nat.zero_le _
      streamEnd := nofun
      outCounted := rfl
      outCanonical := nofun
      groupCount := by simp [unitRegs, resetRegisters, State.reset]
      groupBits := by simp [unitRegs, resetRegisters, State.reset]
      voiceNumber := by simp [unitRegs, resetRegisters, State.reset] }
  block :=
    { ok :=
        { indexInBlock := Nat.le_refl _
          notesCells := rfl
          notesCounted := nofun
          barsBegun := nofun
          bufferHeld := by simp [blockRegs, resetRegisters, State.reset] }
      notFaulted := nofun
      notEnded := nofun
      blockWhole := nofun }
  fault := rfl
  finfo := rfl
  done := rfl
  outValid := rfl

/-- The configuration is bound by the invariant only after a completed run (R48 to R51). -/
theorem Alive.configured {s : State} (h : Alive s) (mode : Mode) (en : Bool) (ovr : Tempo15) (n : Nat) :
    Alive { s with mode := mode, tempoEn := en, tempoOvr := ovr, gapLen := n } :=
  { h with block := { h.block with ok := { h.block.ok with } }, units := { h.units with } }

/-- `RUNNING` is bound by it only where `DONE` is set (R51). -/
theorem Alive.setRunning {s : State} (h : Alive s) : Alive (setRunning s) :=
  { h with block := { h.block with ok := { h.block.ok with } }, units := { h.units with } }

/-! ### Runs -/

theorem Alive.parseNotes {s : State} (h : Alive s) :
    (parseNotes s).Ends (fun _ t => Alive t ∧ t.seq = .expectGap1) Inv :=
  (parseNotes_sound s).mono (fun _ _ hx hq =>
    have ⟨hok, hseq⟩ := parseNotes_ok hx
    ⟨h.quiet hq (.of_seq hok hseq nofun nofun nofun), hseq⟩) fun _ => h.raised

theorem Alive.parseBars {s : State} (h : Alive s) (hs : s.seq = .expectGap1) :
    (parseBars s).Ends (fun _ t => Alive t ∧ t.seq = .expectGap2) Inv :=
  (parseBars_sound s).mono (fun _ _ hx hq =>
    have ⟨hok, hseq⟩ := parseBars_ok hx h.block.ok hs
    ⟨h.quiet hq (.of_seq hok hseq nofun nofun nofun), hseq⟩) fun _ => h.raised

/-- Another voice, where there is one more (R44, R232). -/
theorem Alive.nextVoice {s : State} (g : Nat) (h : Alive s) (hs : s.seq = .expectGap2) (hv : s.voice ≠ lastVoice) :
    Alive (nextVoice g s) := by
  have hgap : Alive (copyGap s.gapLen (emit (.gap .interVoice g) s)) :=
    h.quiet_same ((quiet_emit _ s).trans (quiet_copyGap _ _)) (by simp)
  have hvoice : (copyGap s.gapLen (emit (.gap .interVoice g) s)).voice = s.voice := by simp
  have hseq : (copyGap s.gapLen (emit (.gap .interVoice g) s)).seq = .expectGap2 := by simpa using hs
  unfold Machine.nextVoice
  generalize copyGap s.gapLen (emit (.gap .interVoice g) s) = u at hgap hvoice hseq ⊢
  have hblk : u.blk = .bars := hgap.block.ok.barsBegun (.inr hseq)
  have hnum : 1 ≤ u.voice.toNat ∧ u.voice.toNat ≤ 4 := hgap.units.voiceNumber
  have hlast : u.voice ≠ 4#3 := hvoice ▸ hv
  exact
    { hgap with
      units := { hgap.units with voiceNumber := by simp only [unitRegs]; bv_omega }
      block :=
        { ok :=
            { indexInBlock := hgap.block.ok.indexInBlock
              notesCells := by simpa [blockRegs, BlockRegs.mid, hseq, hblk] using hgap.block.ok.notesCells
              notesCounted := by simp [blockRegs, hblk]
              barsBegun := nofun
              bufferHeld := by simpa [blockRegs, hseq] using hgap.block.ok.bufferHeld }
          notFaulted := nofun
          notEnded := nofun
          blockWhole := by simp [hblk] } }

/-- The end of the tape after the last Bars block (R232, R236). -/
theorem Alive.endOfTape {s : State} (g : Nat) (h : Alive s) (hs : s.seq = .expectGap2) :
    (endOfTape g s).Ends (fun o t => Inv t ∧ o.isSome = true) Inv := by
  refine Act.Ends.bind (Q := fun _ t => Alive t ∧ t.seq = .expectGap2)
    ((fuRead_sound s).mono (fun r t hx hq => ?_) fun _ => h.raised) fun r t _ ⟨ht, hseq⟩ => ⟨?_, rfl⟩
  · have hb := (readFrames_onlyFu hx).blockRegs
    exact ⟨h.quiet_same hq hb, (congrArg BlockRegs.seq hb).trans hs⟩
  · have hgap : Alive (copyGap g (emit (.gap .final g) t)) :=
      ht.quiet_same ((quiet_emit _ t).trans (quiet_copyGap _ _)) (by simp)
    have hgseq : (copyGap g (emit (.gap .final g) t)).seq = .expectGap2 := by simpa using hseq
    generalize copyGap g (emit (.gap .final g) t) = u at hgap hgseq ⊢
    refine hgap.inv_setDone (.of_regs rfl rfl rfl) ?_ rfl
    exact
      { indexInBlock := hgap.block.ok.indexInBlock
        notesCells := by simpa [blockRegs, BlockRegs.mid, hgseq] using hgap.block.ok.notesCells
        notesCounted := nofun
        barsBegun := nofun
        bufferHeld := by simpa [blockRegs, hgseq] using hgap.block.ok.bufferHeld }

/-- What follows a Bars block: another voice, the end of the run, or a fault (R232, R237). -/
theorem Alive.afterBars {s : State} (p : Bool × Nat) (h : Alive s) (hs : s.seq = .expectGap2) :
    (afterBars p s).Ends (fun o t => Inv t ∧ (o = none → Alive t)) Inv := by
  unfold Machine.afterBars
  split
  · split
    · exact h.raised (raised_raise s nofun rfl)
    · have hn := h.nextVoice p.2 hs ‹_›
      exact ⟨hn.inv, fun _ => hn⟩
  · refine (h.endOfTape p.2 hs).mono (fun _ _ _ ⟨hi, ho⟩ => ⟨hi, fun hn => ?_⟩) fun _ => id
    simp [hn] at ho

theorem Alive.runVoice {s : State} (h : Alive s) : (runVoice s).Ends (fun o t => Inv t ∧ (o = none → Alive t)) Inv :=
  h.parseNotes.bind fun _ _ _ ⟨ht, hgap1⟩ => (ht.parseBars hgap1).bind fun p _ _ ⟨hu, hgap2⟩ => hu.afterBars p hgap2

theorem Alive.runVoices : ∀ (n : Nat) {s : State}, Alive s → (runVoices n s).Ends (fun _ => Inv) Inv
  | 0, _, h => h.inv
  | n + 1, _, h => h.runVoice.bind fun o _ _ ⟨hi, hn⟩ =>
    match o with
    | some _ => hi
    | none => (hn rfl).runVoices n

theorem Alive.startRun {s t : State} (h : Alive s) (ht : startRun s = .next t) : Inv t :=
  finish_inv (h.setRunning.runVoices _) ht

/-! ### The operations of the port -/

/-- Every operation of the command port keeps the invariant (R110). -/
theorem exec_operation_inv {i : Instr} {s t : State} (hs : Inv s) (hi : i.source = .port) (h : exec i s = .next t) :
    Inv t := by
  cases hu : unitOperation i with
  | true =>
    obtain ⟨hr, hw⟩ := exec_unit_work hu h
    exact (hs.alive hr).unitWork hw
  | false =>
    cases i with
    | coreReset =>
      injection h with h
      exact h ▸ (alive_resetRegisters s).inv
    | setMode m =>
      obtain ⟨hr, _, rfl⟩ := configure_next h
      exact ((hs.alive hr).configured m s.tempoEn s.tempoOvr s.gapLen).inv.setResult _
    | setTempo en ovr =>
      obtain ⟨hr, _, rfl⟩ := configure_next h
      exact ((hs.alive hr).configured s.mode en ovr s.gapLen).inv.setResult _
    | setGapLen n =>
      obtain ⟨hr, _, rfl⟩ := configure_next h
      exact ((hs.alive hr).configured s.mode s.tempoEn s.tempoOvr n).inv.setResult _
    | start =>
      obtain ⟨hr, _, h⟩ := run_next h
      exact (hs.alive hr).startRun h
    | runDecoder =>
      obtain ⟨hr, _, h⟩ := run_next h
      exact ((hs.alive hr).configured .decode s.tempoEn s.tempoOvr s.gapLen).startRun h
    | runTweak =>
      obtain ⟨hr, _, h⟩ := run_next h
      exact ((hs.alive hr).configured .tweak s.tempoEn s.tempoOvr s.gapLen).startRun h
    | parseNotesBlock =>
      obtain ⟨hr, h⟩ := execParseNotesBlock_next h
      exact finish_inv ((hs.alive hr).parseNotes.mono (fun _ _ _ ht => ht.1.inv) fun _ => id) h
    | parseTempoSubstitution =>
      obtain ⟨hr, h⟩ := execParseNotesBlock_next (execParseTempoSubstitution_next h)
      exact finish_inv ((hs.alive hr).parseNotes.mono (fun _ _ _ ht => ht.1.inv) fun _ => id) h
    | parseBarsBlock =>
      obtain ⟨hr, hseq, h⟩ := execParseBarsBlock_next h
      exact finish_inv (((hs.alive hr).parseBars hseq).mono (fun _ _ _ ht => ht.1.inv) fun _ => id) h
    | bin _ _ | blank _ | sep | tempo _ | note _ _ _ _ _ _ | count _ | checksum _ | index _ => cases hi
    | _ => cases hu

end Sys2Proof.Machine

/-! SUPPORT. What a step fetches at each level, and that the invariant is kept there. -/

namespace Sys2Proof.Machine

/-- What a step makes of what it has fetched. -/
def Fetched.out : Fetched → Out
  | .run i s => exec i s
  | .settled o => o

theorem step_eq (s : State) : step s = (fetch s).out := by
  unfold step
  cases fetch s <;> rfl

/-! ### Operations of the port -/

/-- Every instruction the decoder may answer here is an operation of the port. -/
def AtPort (d : Decoded) : Prop := ∀ i rest, d = .ok (i, rest) → i.source = .port

theorem atPort_ok {i : Instr} {rest : List Byte} (h : i.source = .port) : AtPort (.ok (i, rest)) := by
  intro j r hj
  cases hj
  exact h

theorem atPort_error (e : DecodeError) : AtPort (.error e) := nofun

theorem atPort_withByte {bs : List Byte} {k : Byte → List Byte → Decoded} (h : ∀ b r, AtPort (k b r)) :
    AtPort (withByte bs k) := by
  cases bs with
  | nil => exact atPort_error _
  | cons b r => exact h b r

theorem atPort_withTempo15 {bs : List Byte} {k : Tempo15 → List Byte → Decoded} (h : ∀ t r, AtPort (k t r)) :
    AtPort (withTempo15 bs k) :=
  atPort_withByte fun _ _ => atPort_withByte fun _ _ => h _ _

theorem atPort_withWord {bs : List Byte} {k : Word → List Byte → Decoded} (h : ∀ w r, AtPort (k w r)) :
    AtPort (withWord bs k) :=
  atPort_withByte fun _ _ => atPort_withByte fun _ _ => atPort_withByte fun _ _ => h _ _

theorem atPort_withNat {bs : List Byte} {k : Nat → List Byte → Decoded} (h : ∀ n r, AtPort (k n r)) :
    AtPort (withNat bs k) := by
  unfold withNat
  split
  · exact h _ _
  · exact atPort_error _

/-- The codes of R110, grouped by the operands they take; the other codes have none. -/
theorem decodeOperation_atPort (code : Nat) (bs : List Byte) : AtPort (decodeOperation code bs) := by
  unfold decodeOperation
  split
  case h_2 | h_15 | h_16 => exact atPort_withByte fun _ _ => atPort_ok rfl
  case h_3 => exact atPort_withByte fun _ _ => atPort_withTempo15 fun _ _ => atPort_ok rfl
  case h_4 | h_18 | h_25 => exact atPort_withNat fun _ _ => atPort_ok rfl
  case h_10 =>
    exact atPort_withByte fun _ _ => atPort_withByte fun _ _ => atPort_withByte fun _ _ => atPort_ok rfl
  case h_11 | h_12 => exact atPort_withWord fun _ _ => atPort_withWord fun _ _ => atPort_ok rfl
  case h_13 | h_14 | h_17 | h_23 | h_24 | h_26 => exact atPort_withWord fun _ _ => atPort_ok rfl
  case h_19 =>
    exact atPort_withByte fun _ _ => atPort_withByte fun _ _ => atPort_withByte fun _ _ => atPort_withByte fun _ _ =>
      atPort_withByte fun _ _ => atPort_ok rfl
  case h_29 => exact atPort_error _
  all_goals exact atPort_ok rfl

/-- Bytes at the command port decode to operations only (R110). -/
theorem decode_atPort (bs : List Byte) : AtPort (decode .port bs) := by
  change AtPort (decodePort bs)
  unfold decodePort
  split
  · exact atPort_error _
  · split
    · exact decodeOperation_atPort _ _
    · exact atPort_error _

theorem fetchOperation_inv {s t : State} (hs : Inv s) (h : (fetchOperation s).out = .next t) : Inv t := by
  unfold fetchOperation at h
  split at h
  · injection h with h
    exact h ▸ hs
  · split at h
    · exact exec_operation_inv (hs.takePort _) (decode_atPort _ _ _ ‹_›) h
    · cases h

/-! ### Frames -/

/-- A frame passed and executed as an item of the tape is what FU does with it (R90, R132). -/
theorem frameItem_inv {f : Frame} {s t : State} (hs : Inv s) (hpos : s.ipos < s.tape.length)
    (h : acceptUnit (passFrame s) (fun u => finish frameResult (fuFrame f u)) = .next t) : Inv t := by
  obtain ⟨hf, hd, h⟩ := acceptUnit_eq_next.1 h
  have halive : Alive (drive s) := (hs.alive ⟨hf, hd⟩).quiet_same (quiet_drive s) rfl
  exact halive.unitWork (finish_work (fuFrame_sound f hpos) (fun _ _ hx => (fuFrame_onlyFu hx).blockRegs) h)

theorem fetchFrame_inv {s t : State} (hs : Inv s) (h : (fetchFrame s).out = .next t) : Inv t := by
  unfold fetchFrame at h
  split at h
  · rename_i f hn
    obtain ⟨hpos, _⟩ := List.getElem?_eq_some_iff.1 hn
    unfold decodeFrameItem at h
    split at h
    · exact frameItem_inv hs hpos h
    · exact frameItem_inv hs hpos h
  · exact exec_operation_inv (i := .fuEnd) hs rfl h

/-! ### Words -/

/-- Where in a run a word of a position is due (R94, R231). -/
def Due (s : State) : WordPos → Prop
  | .notesCount => s.seq = .expectLeaderGap ∨ s.seq = .expectNotesBlock
  | .notesContent => midNotes s ∧ s.idx < s.count.toNat
  | .notesChecksum => midNotes s ∧ s.count.toNat ≤ s.idx
  | .barsCount => s.seq = .expectGap1
  | .barsContent => s.seq = .expectBarsBlock ∧ s.idx < s.count.toNat
  | .barsChecksum => s.seq = .expectBarsBlock

theorem position_due {s : State} {pos : WordPos} (h : position s = some pos) : Due s pos := by
  unfold position at h
  split at h
  · cases hseq : s.seq <;> simp only [hseq] at h
    case expectLeaderGap =>
      cases h
      exact .inl hseq
    case expectNotesBlock =>
      split at h
      · split at h
        · cases h
          exact ⟨⟨hseq, ‹_›⟩, ‹_›⟩
        · cases h
          exact ⟨⟨hseq, ‹_›⟩, Nat.le_of_not_lt ‹_›⟩
      · cases h
        exact .inr hseq
    case expectGap1 =>
      cases h
      exact hseq
    case expectBarsBlock =>
      split at h
      · cases h
        exact ⟨hseq, ‹_›⟩
      · cases h
        exact hseq
    all_goals cases h
  · cases h

/-- Inside a Notes block a step takes a word, and quiet work does not change what it takes. -/
theorem Alive.level_of_midNotes {s t : State} (h : Alive s) (hm : midNotes s) (hq : Quiet s t) : t.level ≠ .operation :=
  fun hl => h.block.blockWhole (hq.level ▸ hl) hm

theorem contentWord_inv {w : Word} {s t : State} (hs : Alive s) (h : contentWord w s = .next t) : Inv t := by
  rcases contentWord_next h with ⟨hp, h⟩ | ⟨hp, h⟩
  · obtain ⟨hm, hlt⟩ := position_due hp
    refine hs.finish (takeNotesContent_sound w _ s) (fun _ u hu hq => ?_) h
    obtain ⟨hok, hmu, _⟩ := takeNotesContent_ok hu hs.block.ok hm hlt
    exact .of_midNotes hok hmu (hs.level_of_midNotes hm hq)
  · obtain ⟨hseq, hlt⟩ := position_due hp
    refine hs.finish (takeBarsContent_sound w _ s) (fun _ u hu _ => ?_) h
    obtain ⟨hok, hsu, _⟩ := takeBarsContent_ok hu hs.block.ok hseq hlt
    exact .of_seq hok hsu nofun nofun nofun

theorem checksum_inv {c : Word} {s t : State} (hs : Alive s) (h : execChecksum c s = .next t) : Inv t := by
  obtain ⟨_, ⟨hp, h⟩ | ⟨hp, h⟩⟩ := execChecksum_next h
  · obtain ⟨hm, hle⟩ := position_due hp
    refine hs.finish (takeNotesChecksum_sound c _ s) (fun _ u hu _ => ?_) h
    obtain ⟨hok, hsu⟩ := takeNotesChecksum_ok hu hs.block.ok hm (Nat.le_antisymm hs.block.ok.indexInBlock hle)
    exact .of_seq hok hsu nofun nofun nofun
  · refine hs.finish (takeBarsChecksum_sound c _ s) (fun _ u hu _ => ?_) h
    obtain ⟨hok, hsu⟩ := takeBarsChecksum_ok hu hs.block.ok (position_due hp)
    exact .of_seq hok hsu nofun nofun nofun

/-- A count word taken by a step, in the state `u` that the clearing before it and its reading have left. What it asks of
`u` is the block structure before a Bars block; a Notes block begins anew from any state. -/
theorem count_inv {n : Word} {s u t : State} (hs : Alive s) (hq : Quiet s u) (hl : s.level ≠ .operation)
    (hb : u.seq = .expectGap1 → (blockRegs u).Ok) (h : execCount n u = .next t) : Inv t := by
  obtain ⟨_, rfl | ⟨hseq, h⟩⟩ := execCount_next h
  · obtain ⟨hok, hm, _⟩ := takeNotesCount_ok n u.wordGap (s := beginNotes u) rfl rfl rfl rfl
    have hqt := hq.trans ((quiet_beginNotes u).trans (quiet_takeNotesCount n u.wordGap _))
    exact (hs.quiet hqt (.of_midNotes hok hm (hqt.level ▸ hl))).inv.setResult _
  · refine hs.finish ((hq.trans (quiet_beginBars u)).sound (takeBarsCount_sound n _ _ _)) (fun _ v hv _ => ?_) h
    obtain ⟨hok, hsv, _⟩ := takeBarsCount_ok hv (beginBars_ok (hb hseq) hseq) hseq rfl rfl
    exact .of_seq hok hsv nofun nofun nofun

theorem quiet_beginBlock (pos : WordPos) (s : State) : Quiet s (beginBlock pos s) := by
  cases pos with
  | notesCount => exact quiet_beginNotes s
  | barsCount => exact quiet_beginBars s
  | notesContent | notesChecksum | barsContent | barsChecksum => exact .refl s

/-- Every word at a content position is an item of the content (R98, R103). -/
theorem contentOf_decodeWordAt {pos : WordPos} (h : pos = .notesContent ∨ pos = .barsContent) (w : Word) :
    ∃ w', contentOf (decodeWordAt pos w) = some w' := by
  rcases h with rfl | rfl <;> unfold decodeWordAt
  · dsimp only
    split <;> exact ⟨_, rfl⟩
  · dsimp only
    split <;> exact ⟨_, rfl⟩

/-- The word due in a run, read by FU and executed by its position. -/
theorem dueWord_inv {pos : WordPos} {r : BlockWord} {s u t : State} (hs : Alive s) (hl : s.level ≠ .operation)
    (hp : position s = some pos) (hr : readBlockWord (beginBlock pos s) = .done r u)
    (h : exec (decodeWordAt pos r.w) u = .next t) : Inv t := by
  have hq : Quiet s u := (quiet_beginBlock pos s).trans ((readBlockWord_sound _).of_done hr)
  have hb := readBlockWord_blockRegs hr
  have hdue := position_due hp
  cases pos with
  | notesCount =>
    refine count_inv hs hq hl (fun hseq => ?_) h
    have hseq' : s.seq = .expectGap1 := (congrArg BlockRegs.seq hb).symm.trans hseq
    simp [Due, hseq'] at hdue
  | barsCount => exact count_inv hs hq hl (fun _ => hb ▸ beginBars_ok hs.block.ok hdue) h
  | notesChecksum | barsChecksum => exact checksum_inv (hs.quiet_same hq hb) h
  | notesContent =>
    obtain ⟨w, hw⟩ := contentOf_decodeWordAt (.inl rfl) r.w
    exact contentWord_inv (hs.quiet_same hq hb) (exec_content hw h).2
  | barsContent =>
    obtain ⟨w, hw⟩ := contentOf_decodeWordAt (.inr rfl) r.w
    exact contentWord_inv (hs.quiet_same hq hb) (exec_content hw h).2

theorem fetchDueWord_inv {pos : WordPos} {s t : State} (hs : Alive s) (hl : s.level ≠ .operation)
    (hp : position s = some pos) (h : (fetchDueWord pos s).out = .next t) : Inv t := by
  unfold fetchDueWord at h
  split at h
  · split at h
    · cases h
    · split at h
      · exact dueWord_inv hs hl hp ‹_› h
      · rename_i u hu
        injection h with h
        subst h
        have hr : Raised (beginBlock pos s) u := (readBlockWord_sound _).of_raised hu
        exact (hs.raised ((quiet_beginBlock pos s).raised hr)).setResult _
      · cases h
  · cases h

theorem fetchWord_inv {s t : State} (hs : Inv s) (hl : s.level ≠ .operation) (h : (fetchWord s).out = .next t) :
    Inv t := by
  unfold fetchWord at h
  split at h
  · rename_i hrun
    obtain ⟨_, hf, hd⟩ := hrun
    have halive := hs.alive ⟨hf, hd⟩
    split at h
    · exact fetchDueWord_inv halive hl ‹_› h
    · split at h
      · exact finish_inv ((halive.afterBars _ ‹_›).mono (fun _ _ _ ht => ht.1) fun _ => id) h
      · injection h with h
        exact h ▸ hs
  · injection h with h
    exact h ▸ hs

theorem step_inv {s t : State} (hs : Inv s) (h : step s = .next t) : Inv t := by
  rw [step_eq] at h
  unfold fetch at h
  split at h
  case h_1 => exact fetchOperation_inv hs h
  case h_2 hl => exact fetchWord_inv hs (by simp [hl]) h
  case h_3 => exact fetchFrame_inv hs h

/-! ### The tape -/

/-- No instruction writes the tape; `coreReset` carries it over (R22, R260). -/
theorem exec_tape {i : Instr} {s t : State} (h : exec i s = .next t) : t.tape = s.tape := by
  by_cases hi : i = .coreReset
  · subst hi
    injection h with h
    exact h ▸ rfl
  · exact (exec_framed hi h).tape

theorem run_tape {i : Instr} {s t : State} (h : (Fetched.run i s).out = .next t) : t.tape = s.tape :=
  exec_tape (i := i) h

theorem fetchDueWord_tape {pos : WordPos} {s t : State} (h : (fetchDueWord pos s).out = .next t) : t.tape = s.tape := by
  have hx : Sound s (readBlockWord (beginBlock pos s)) := (quiet_beginBlock pos s).sound (readBlockWord_sound _)
  unfold fetchDueWord at h
  split at h
  · split at h
    · cases h
    · split at h
      · rename_i r u hu
        have hq : Quiet s u := hx.of_done hu
        exact (run_tape h).trans hq.toSteady.framed.tape
      · rename_i u hu
        injection h with h
        have hr : Raised s u := hx.of_raised hu
        exact h ▸ hr.toSteady.framed.tape
      · cases h
  · cases h

theorem step_tape {s t : State} (h : step s = .next t) : t.tape = s.tape := by
  rw [step_eq] at h
  unfold fetch at h
  split at h
  case h_1 =>
    unfold fetchOperation at h
    split at h
    · injection h with h
      exact h ▸ rfl
    · split at h
      · exact (run_tape h).trans rfl
      · cases h
  case h_2 =>
    unfold fetchWord at h
    split at h
    · split at h
      · exact fetchDueWord_tape h
      · split at h
        · exact (finish_steady (afterBars_steady _ s) h).framed.tape
        · injection h with h
          exact h ▸ rfl
    · injection h with h
      exact h ▸ rfl
  case h_3 =>
    unfold fetchFrame at h
    split at h <;> exact (run_tape h).trans rfl

end Sys2Proof.Machine

/-! SUPPORT. The statements about reset, the invariant, and what instructions leave unchanged. -/

namespace Sys2Proof.Proofs

open Sys2Proof.Machine

/-- Settles O1: `coreReset` writes every register, whatever the state. -/
theorem coreResetGivesResetValues : Obligations.CoreResetGivesResetValues := by
  intro s
  refine ⟨resetRegisters s, rfl, ?_⟩
  simp [resetRegisters, State.reset, Config.gapLenDefault]

/-- Settles O3: `State.reset` is what `coreReset` makes of itself. -/
theorem resetMeetsInvariant : Obligations.ResetMeetsInvariant := (alive_resetRegisters State.reset).inv

/-- Settles O48: every instruction but `coreReset` begins with `accept`. -/
theorem onlyResetLeavesATerminalState : Obligations.OnlyResetLeavesATerminalState := by
  intro i s hi
  obtain ⟨k, hk⟩ := exec_eq_accept hi s
  exact ⟨fun hf => hk.trans (accept_of_faulted k hf), fun hf hd => hk.trans (accept_of_ended k hf hd)⟩

/-- Settles O55: at each level the step is fetched and executed within the invariant. -/
theorem everyStepKeepsTheInvariant : Obligations.EveryStepKeepsTheInvariant := fun _ _ hs h => step_inv hs h

/-- Settles O58: what is fetched is read from the tape, and no instruction writes it. -/
theorem theTapeIsNeverWritten : Obligations.TheTapeIsNeverWritten :=
  ⟨fun _ _ _ h => exec_tape h, fun _ _ h => step_tape h⟩

/-- Settles O59: the frame of every instruction holds for a fault too, where the statement asks nothing. -/
theorem configurationIsConstantDuringARun : Obligations.ConfigurationIsConstantDuringARun := by
  intro i s t hi hrun h _
  have hh := (exec_framed hi h).host hrun
  exact ⟨congrArg HostRegs.mode hh, congrArg HostRegs.tempoEn hh, congrArg HostRegs.tempoOvr hh,
    congrArg HostRegs.gapLen hh⟩

/-- Settles O60: FU passes frames one by one, and nothing else moves `ipos`. -/
theorem tapePositionNeverDecreases : Obligations.TapePositionNeverDecreases :=
  fun _ _ _ hi h _ => (exec_framed hi h).ipos

end Sys2Proof.Proofs

/-! SUPPORT. The two ways in which a part of an operation uses memory, said once for every part: it writes
`OUT` in `TWEAK` mode only (R63, R225), and it meets an undefined cell of `NOTES` only where a cell below `notes_count` is
undefined (R66, R68). -/

namespace Sys2Proof.Machine

variable {α β : Type}

/-! ### The cells of NOTES -/

/-- A listed index holds a value. -/
theorem Memory.read_isSome {m : Memory} {i : Nat} (h : i ∈ m.map Prod.fst) : (m.read i).isSome = true := by
  induction m with
  | nil => cases h
  | cons c m ih =>
    obtain ⟨a, v⟩ := c
    rw [Memory.read_cons]
    split
    · rfl
    · rename_i hne
      exact ih ((List.mem_cons.1 h).resolve_left (Ne.symm hne))

/-- A range of cells that all hold a value is read. -/
theorem Memory.readRange_of_defined {m : Memory} : ∀ {n i : Nat}, (∀ a, i ≤ a → a < i + n → (m.read a).isSome = true) →
    ∃ ws, m.readRange i n = .ok ws
  | 0, _, _ => ⟨[], rfl⟩
  | n + 1, i, h => by
    obtain ⟨w, hw⟩ := Option.isSome_iff_exists.1 (h i (by omega) (by omega))
    obtain ⟨ws, hws⟩ := Memory.readRange_of_defined (n := n) (i := i + 1) fun a hl hr => h a (by omega) (by omega)
    exact ⟨w :: ws, by rw [Memory.readRange, hw, hws]⟩

/-- A bar ends within the cells it is looked for in (R196). -/
theorem sliceEnd_le (m : Memory) : ∀ i n : Nat, sliceEnd m i n ≤ i + n
  | i, 0 => Nat.le_refl i
  | i, n + 1 => by
    unfold sliceEnd
    split
    · omega
    · have := sliceEnd_le m (i + 1) n
      omega

/-- Every cell below `notes_count` holds a value, and no other does (R41). -/
def CellsDefined (s : State) : Prop := s.notes.map Prod.fst = List.range s.notesCount.toNat

theorem CellsDefined.congr {s t : State} (h : CellsDefined s) (hn : t.notes = s.notes)
    (hc : t.notesCount = s.notesCount) : CellsDefined t := by
  rw [CellsDefined, hn, hc]
  exact h

/-- Except inside a Notes block half read, the block structure says so. -/
theorem BlockRegs.Ok.cellsDefined {s : State} (h : (blockRegs s).Ok) (hm : ¬ midNotes s) : CellsDefined s := by
  have hc : s.notes.map Prod.fst = List.range (if midNotes s then s.idx else s.notesCount.toNat) := h.notesCells
  rwa [if_neg hm] at hc

/-- The bar at an index below `notes_count` is read whole (R66, R196). -/
theorem CellsDefined.barSlice_ne_error {k : Word} {s : State} {f : Fault} (h : CellsDefined s)
    (hk : k.toNat < s.notesCount.toNat) : barSlice k s ≠ .error f := by
  have hend := sliceEnd_le s.notes k.toNat (s.notesCount.toNat - k.toNat)
  obtain ⟨ws, hws⟩ := Memory.readRange_of_defined (m := s.notes) (i := k.toNat)
    (n := sliceEnd s.notes k.toNat (s.notesCount.toNat - k.toNat) - k.toNat) fun a _ ha =>
      Memory.read_isSome (by rw [h, List.mem_range]; omega)
  intro hf
  cases hws.symm.trans hf

/-! ### What a part may do -/

/-- `OUT` and its counter are as before. -/
def OutKept (s t : State) : Prop := t.out = s.out ∧ t.opos = s.opos

/-- In `DECODE` mode the mode stays and nothing is written to `OUT`. -/
def Silent (s t : State) : Prop := s.mode = .decode → t.mode = .decode ∧ OutKept s t

theorem Silent.of_regs {s t : State} (hm : t.mode = s.mode) (ho : t.out = s.out) (hp : t.opos = s.opos) : Silent s t :=
  fun hd => ⟨hm.trans hd, ho, hp⟩

theorem Silent.refl (s : State) : Silent s s := .of_regs rfl rfl rfl

theorem Silent.trans {s t u : State} (h1 : Silent s t) (h2 : Silent t u) : Silent s u := by
  intro hd
  obtain ⟨hdt, ho, hp⟩ := h1 hd
  obtain ⟨hdu, ho', hp'⟩ := h2 hdt
  exact ⟨hdu, ho'.trans ho, hp'.trans hp⟩

theorem silent_emit (e : Event) (s : State) : Silent s (emit e s) := .of_regs rfl rfl rfl

theorem silent_drive (s : State) : Silent s (drive s) := .of_regs rfl rfl rfl

theorem silent_passFrame (s : State) : Silent s (passFrame s) := .of_regs rfl rfl rfl

theorem silent_beginNotes (s : State) : Silent s (beginNotes s) := .of_regs rfl rfl rfl

theorem silent_beginBars (s : State) : Silent s (beginBars s) := .of_regs rfl rfl rfl

theorem silent_copyWord (w : Word) (s : State) : Silent s (copyWord w s) := by
  intro hd
  rw [copyWord_of_decode w (by simp [hd])]
  exact Silent.refl s hd

theorem silent_copyGap (n : Nat) (s : State) : Silent s (copyGap n s) := by
  intro hd
  rw [copyGap_of_decode n (by simp [hd])]
  exact Silent.refl s hd

/-- The part begun in `s` is silent whether it completes or raises a fault, and is stuck only where `D` says so. -/
def Careful (D : Prop) (s : State) (x : Act α) : Prop :=
  match x with
  | .done _ t => Silent s t
  | .raised t => Silent s t
  | .stuck _ => D

variable {D : Prop}

theorem careful_done {s t : State} (a : α) (h : Silent s t) : Careful D s (.done a t) := h

/-- Fault entry writes nothing to `OUT` (R281). -/
theorem careful_raise (k : FaultKind) (info : FInfo) (s : State) : Careful D s (.raised (raise k info s) : Act α) :=
  Silent.of_regs rfl rfl rfl

/-- Careful work after silent work is careful. -/
theorem Silent.careful {s t : State} {x : Act α} (h : Silent s t) (hx : Careful D t x) : Careful D s x := by
  cases x with
  | done a u => exact h.trans hx
  | raised u => exact h.trans hx
  | stuck f => exact hx

theorem careful_bind {s : State} {x : Act α} {f : α → State → Act β} (hx : Careful D s x)
    (hf : ∀ a t, x = .done a t → Careful D t (f a t)) : Careful D s (x.bind f) := by
  cases x with
  | done a t => exact Silent.careful hx (hf a t rfl)
  | raised t => exact hx
  | stuck f => exact hx

/-! ### FU, CS and NC -/

theorem fuFrame_careful (f : Frame) (s : State) : Careful D s (fuFrame f s) := by
  cases hf : isBinary f with
  | true =>
    by_cases h2 : s.fcnt = 2#2
    · rw [fuFrame_last hf h2]
      exact careful_done _ (.of_regs rfl rfl rfl)
    · rw [fuFrame_part hf h2]
      exact careful_done _ (.of_regs rfl rfl rfl)
  | false =>
    by_cases h0 : s.fcnt = 0#2
    · rw [fuFrame_blank hf h0]
      exact careful_done _ (.of_regs rfl rfl rfl)
    · rw [fuFrame_inner_blank hf h0]
      exact careful_raise _ _ s

theorem fuAtEnd_careful (s : State) : Careful D s (fuAtEnd s) := by
  unfold fuAtEnd
  split
  · exact careful_done _ (.of_regs rfl rfl rfl)
  · exact careful_raise _ _ s

theorem readFrames_careful : ∀ (fs : List Frame) (s : State), Careful D s (readFrames fs s)
  | [], s => careful_bind (fuAtEnd_careful s) fun _ t _ => careful_done _ (.refl t)
  | f :: fs, s =>
    (silent_passFrame s).careful <| careful_bind (fuFrame_careful f _) fun r t _ =>
      match r with
      | some _ => careful_done _ (.refl t)
      | none => readFrames_careful fs t

theorem fuRead_careful (s : State) : Careful D s (fuRead s) := readFrames_careful _ s

theorem readBlockWord_careful (s : State) : Careful D s (readBlockWord s) :=
  careful_bind (fuRead_careful s) fun r t _ =>
    match r with
    | .word _ _ => careful_done _ (.refl t)
    | .endOfStream _ => careful_raise _ _ t

theorem csVerify_careful (e c : Word) (j : Option Nat) (s : State) : Careful D s (csVerify e c j s) := by
  rw [csVerify_eq]
  split
  · exact careful_done _ (.refl s)
  · exact careful_raise _ _ s

theorem nameArticulation_careful (c : BitVec 4) (j : Option Nat) (w : Option Word) (s : State) :
    Careful D s (nameArticulation c j w s) := by
  rw [nameArticulation_eq]
  split
  · exact careful_done _ (.refl s)
  · exact careful_raise _ _ s

/-! ### A Notes block -/

theorem silent_takeNotesCount (n : Word) (g : Nat) (s : State) : Silent s (takeNotesCount n g s) := by
  have hgap : Silent s (if s.seq = .expectLeaderGap then copyGap g (emit (.gap .leader g) s) else s) := by
    split
    · exact (silent_emit _ s).trans (silent_copyGap g _)
    · exact .refl s
  refine hgap.trans (.trans ?_ ((silent_emit _ _).trans (silent_copyWord n _)))
  exact .of_regs rfl rfl rfl

theorem noteContent_careful (w : Word) (i j : Nat) (s : State) : Careful D s (noteContent w i j s) := by
  unfold noteContent
  split
  · exact careful_done _ (silent_emit _ s)
  · exact careful_done _ (silent_emit _ s)
  · exact careful_bind (nameArticulation_careful _ _ _ s) fun _ t _ => careful_done _ (silent_emit _ t)

theorem takeNotesContent_careful (w : Word) (j : Nat) (s : State) : Careful D s (takeNotesContent w j s) := by
  have hstore : Silent s { s with notes := s.notes.write s.idx w, sumIn := csAdd s.sumIn w } := .of_regs rfl rfl rfl
  refine hstore.careful (careful_bind (noteContent_careful w _ j _) fun wOut t _ => careful_done _ ?_)
  have hsum : Silent t { t with sumOut := csAdd t.sumOut wOut } := .of_regs rfl rfl rfl
  exact hsum.trans ((silent_copyWord wOut _).trans (.of_regs rfl rfl rfl))

theorem takeNotesChecksum_careful (c : Word) (j : Nat) (s : State) : Careful D s (takeNotesChecksum c j s) :=
  careful_bind (csVerify_careful c _ _ s) fun _ t _ =>
    careful_done _ ((silent_emit _ t).trans ((silent_copyWord t.sumOut _).trans (.of_regs rfl rfl rfl)))

theorem notesLoop_careful : ∀ (n : Nat) (s : State), Careful D s (notesLoop n s)
  | 0, s => careful_done _ (.refl s)
  | n + 1, s =>
    careful_bind (readBlockWord_careful s) fun r t _ =>
      careful_bind (takeNotesContent_careful r.w r.j t) fun _ u _ => notesLoop_careful n u

theorem parseNotes_careful (s : State) : Careful D s (parseNotes s) :=
  (silent_beginNotes s).careful <| careful_bind (readBlockWord_careful _) fun r t _ =>
    (silent_takeNotesCount r.w r.g t).careful <| careful_bind (notesLoop_careful _ _) fun _ u _ =>
      careful_bind (readBlockWord_careful u) fun c v _ => takeNotesChecksum_careful c.w c.j v

/-! ### A Bars block, which alone reads `NOTES` -/

/-- The cells of `NOTES` are defined, or what is said does not depend on it. -/
def Readable (D : Prop) (s : State) : Prop := CellsDefined s ∨ D

theorem Readable.congr {s t : State} (h : Readable D s) (hn : t.notes = s.notes) (hc : t.notesCount = s.notesCount) :
    Readable D t := h.imp_left fun h => h.congr hn hc

/-- A change of the block structure that leaves `NOTES` and its count leaves `NOTES` readable. -/
theorem Readable.of_blockRegs {s t : State} {b : BlockRegs} (h : Readable D s) (hb : blockRegs t = b)
    (hn : b.notes = s.notes) (hc : b.notesCount = s.notesCount) : Readable D t :=
  h.congr ((congrArg BlockRegs.notes hb).trans hn) ((congrArg BlockRegs.notesCount hb).trans hc)

theorem Readable.of_barSlice_error {k : Word} {s : State} {f : Fault} (h : Readable D s)
    (hk : k.toNat < s.notesCount.toNat) (hf : barSlice k s = .error f) : D :=
  h.resolve_left fun hc => hc.barSlice_ne_error hk hf

theorem takeBarsCount_careful (n : Word) (g j : Nat) (s : State) : Careful D s (takeBarsCount n g j s) := by
  unfold takeBarsCount
  split
  · exact careful_raise _ _ s
  · have hgap : Silent s (copyGap g (emit (.gap .notesBars g) s)) := (silent_emit _ s).trans (silent_copyGap g _)
    refine careful_done _ (hgap.trans (.trans ?_ ((silent_emit _ _).trans (silent_copyWord n _))))
    exact .of_regs rfl rfl rfl

theorem barContent_careful (w : Word) (i j : Nat) {s : State} (hs : Readable D s) : Careful D s (barContent w i j s) := by
  unfold barContent
  split
  · exact careful_done _ (silent_emit _ s)
  · split
    · exact careful_raise _ _ s
    · split
      · exact careful_done _ (silent_emit _ s)
      · exact hs.of_barSlice_error (Nat.lt_of_not_le ‹_›) ‹_›

theorem takeBarsContent_careful (w : Word) (j : Nat) {s : State} (hs : Readable D s) :
    Careful D s (takeBarsContent w j s) := by
  have hsum : Silent s { s with sumIn := csAdd s.sumIn w } := .of_regs rfl rfl rfl
  exact hsum.careful <| careful_bind (barContent_careful w _ j (hs.congr rfl rfl)) fun _ t _ =>
    careful_done _ ((silent_copyWord w t).trans (.of_regs rfl rfl rfl))

theorem takeBarsChecksum_careful (c : Word) (j : Nat) (s : State) : Careful D s (takeBarsChecksum c j s) :=
  careful_bind (csVerify_careful c _ _ s) fun _ t _ =>
    careful_done _ ((silent_emit _ t).trans ((silent_copyWord c _).trans (.of_regs rfl rfl rfl)))

theorem barsLoop_careful : ∀ (n : Nat) {s : State}, Readable D s → Careful D s (barsLoop n s)
  | 0, s, _ => careful_done _ (.refl s)
  | n + 1, s, hs =>
    careful_bind (readBlockWord_careful s) fun r t ht =>
      have htr : Readable D t := hs.of_blockRegs (readBlockWord_blockRegs ht) rfl rfl
      careful_bind (takeBarsContent_careful r.w r.j htr) fun _ _ hu =>
        barsLoop_careful n (htr.of_blockRegs (takeBarsContent_blockRegs hu) rfl rfl)

theorem parseBars_careful {s : State} (hs : Readable D s) : Careful D s (parseBars s) :=
  (silent_beginBars s).careful <| careful_bind (readBlockWord_careful _) fun r t ht =>
    have htr : Readable D t := hs.of_blockRegs (readBlockWord_blockRegs ht) rfl rfl
    careful_bind (takeBarsCount_careful r.w r.g r.j t) fun _ _ hu =>
      careful_bind (barsLoop_careful _ (htr.of_blockRegs (takeBarsCount_blockRegs hu) rfl rfl)) fun _ v _ =>
        careful_bind (readBlockWord_careful v) fun c x _ => takeBarsChecksum_careful c.w c.j x

/-! ### Runs -/

theorem endOfTape_careful (g : Nat) (s : State) : Careful D s (endOfTape g s) :=
  careful_bind (fuRead_careful s) fun _ t _ =>
    careful_done _ ((silent_emit _ t).trans ((silent_copyGap g _).trans (.of_regs rfl rfl rfl)))

theorem silent_nextVoice (g : Nat) (s : State) : Silent s (nextVoice g s) :=
  (silent_emit _ s).trans ((silent_copyGap s.gapLen _).trans (.of_regs rfl rfl rfl))

theorem afterBars_careful (p : Bool × Nat) (s : State) : Careful D s (afterBars p s) := by
  unfold afterBars
  split
  · split
    · exact careful_raise _ _ s
    · exact careful_done _ (silent_nextVoice p.2 s)
  · exact endOfTape_careful p.2 s

/-- The Bars block of a voice follows its Notes block, which has defined the cells (R66, R192). -/
theorem runVoice_careful (s : State) : Careful D s (runVoice s) :=
  careful_bind (parseNotes_careful s) fun _ t ht =>
    have ⟨hok, hseq⟩ := parseNotes_ok ht
    have hcells : CellsDefined t := hok.cellsDefined (by simp [hseq])
    careful_bind (parseBars_careful (.inl hcells)) fun p u _ => afterBars_careful p u

theorem runVoices_careful : ∀ (n : Nat) (s : State), Careful D s (runVoices n s)
  | 0, s => careful_done _ (.refl s)
  | n + 1, s => careful_bind (runVoice_careful s) fun o t _ =>
    match o with
    | some _ => careful_done _ (.refl t)
    | none => runVoices_careful n t

end Sys2Proof.Machine

/-! SUPPORT. The same for every instruction (`exec_answers`), and that no step stops the machine. -/

namespace Sys2Proof.Machine

variable {α : Type} {D : Prop}

/-! ### What an instruction answers -/

/-- In `DECODE` mode nothing is written to `OUT`; the mode may be written. -/
def Kept (s t : State) : Prop := s.mode = .decode → OutKept s t

theorem Silent.kept {s t : State} (h : Silent s t) : Kept s t := fun hd => (h hd).2

/-- An answer to an instruction begun in `s`: a next state keeps `OUT` as `Kept` says, and the machine stops only where `D`
says so. -/
def Answers (D : Prop) (s : State) : Out → Prop
  | .next t => Kept s t
  | .fault _ => D
  | .refused _ => True

theorem answers_accept {s : State} {k : Out} (h : s.fault = 0#4 → Answers D s k) : Answers D s (accept s k) := by
  unfold accept
  split
  · split
    · trivial
    · exact h ‹_›
  · trivial

theorem answers_acceptUnit {s : State} {k : State → Out} (h : s.fault = 0#4 → Answers D s (k (drive s))) :
    Answers D s (acceptUnit s k) := answers_accept h

theorem answers_require {c : Prop} [Decidable c] {r : Refusal} {s : State} {k : Out} (h : c → Answers D s k) :
    Answers D s (require c r k) := by
  unfold require
  split
  · exact h ‹_›
  · trivial

theorem answers_finish {f : α → Result} {x : Act α} {s : State} (hx : Careful D s x) : Answers D s (finish f x) := by
  cases x with
  | done a t => exact Silent.kept hx
  | raised t => exact Silent.kept hx
  | stuck f => exact hx

/-- A body that only puts a result in place. -/
theorem answers_result (r : Result) (s : State) : Answers D s (acceptUnit s fun s => .next (setResult r s)) :=
  answers_acceptUnit fun _ _ => ⟨rfl, rfl⟩

/-- The body of a unit's operation, run on the state that remembers it. -/
theorem answers_unit {f : α → Result} {x : State → Act α} {s : State} (hx : Careful D (drive s) (x (drive s))) :
    Answers D s (acceptUnit s fun s => finish f (x s)) :=
  answers_acceptUnit fun _ => answers_finish ((silent_drive s).careful hx)

theorem configure_answers {s u : State} (ho : OutKept s u) : Answers D s (configure s u) :=
  answers_accept fun _ => answers_require fun _ _ => ho

theorem startRun_answers {s u : State} (hm : s.mode = .decode → u.mode = .decode) (ho : OutKept s u) :
    Answers D s (accept s <| require (atReset s) .notAtReset <| startRun u) := by
  have hrun : Silent s (setRunning u) := fun hd => ⟨hm hd, ho⟩
  exact answers_accept fun _ => answers_require fun _ => answers_finish (hrun.careful (runVoices_careful _ _))

/-! ### The instructions -/

/-- The state lets the instruction read `NOTES` where it does (R66): the cells are defined, or a Notes block is half read,
where only `barSlice` would read; or what is said does not depend on it. -/
def MayRead (D : Prop) (i : Instr) (s : State) : Prop := Readable D s ∨ (midNotes s ∧ ∀ k, i ≠ .barSlice k)

theorem MayRead.readable {i : Instr} {s : State} (h : MayRead D i s) (hs : s.seq ≠ .expectNotesBlock) : Readable D s :=
  h.resolve_right fun hm => hs hm.1.1

/-- What leaves the block structure alone leaves it readable. -/
theorem MayRead.of_blockRegs {i : Instr} {s t : State} (h : MayRead D i s) (hb : blockRegs t = blockRegs s) :
    MayRead D i t := by
  rcases h with h | ⟨⟨hseq, hblk⟩, hi⟩
  · exact .inl (h.of_blockRegs hb rfl rfl)
  · exact .inr ⟨⟨(congrArg BlockRegs.seq hb).trans hseq, (congrArg BlockRegs.blk hb).trans hblk⟩, hi⟩

theorem fuStep_answers (s : State) : Answers D s (execFuStep s) := by
  refine answers_acceptUnit fun _ => ?_
  split
  · exact answers_finish (((silent_drive s).trans (silent_passFrame _)).careful (fuFrame_careful _ _))
  · trivial

theorem fuEnd_answers (s : State) : Answers D s (execFuEnd s) := by
  refine answers_acceptUnit fun _ => ?_
  split
  · trivial
  · exact answers_finish ((silent_drive s).careful (fuAtEnd_careful _))

theorem readWord_answers (s : State) : Answers D s (execReadWord s) :=
  answers_acceptUnit fun _ => answers_require fun _ => answers_require fun _ =>
    answers_finish ((silent_drive s).careful (fuRead_careful _))

theorem peekGap_answers (s : State) : Answers D s (execPeekGap s) := by
  refine answers_acceptUnit fun _ => answers_require fun _ => ?_
  exact (silent_drive s).kept

theorem verify_answers (e c : Word) (s : State) : Answers D s (execVerify e c s) := by
  refine answers_unit (Silent.careful ?_ (csVerify_careful e c _ _))
  split <;> exact .of_regs rfl rfl rfl

theorem articulationName_answers (c : BitVec 4) (s : State) : Answers D s (execArticulationName c s) := by
  refine answers_unit (Silent.careful ?_ (nameArticulation_careful c _ _ _))
  split <;> exact .of_regs rfl rfl rfl

theorem barSlice_answers {k : Word} {s : State} (hr : s.fault = 0#4 → Readable D s) : Answers D s (execBarSlice k s) := by
  refine answers_acceptUnit fun hf => answers_require fun hk => ?_
  split
  · exact fun _ => ⟨rfl, rfl⟩
  · exact (hr hf).of_barSlice_error hk ‹_›

/-- TE's own operations are refused in `DECODE` mode (R225). -/
theorem tweakOnly_answers {s : State} {k : State → State} :
    Answers D s (acceptUnit s fun s => require (s.mode = .tweak) .decodeMode (.next (k s))) :=
  answers_acceptUnit fun _ => answers_require fun (hm : s.mode = .tweak) hd => by simp [hm] at hd

theorem parseNotesBlock_answers (s : State) : Answers D s (execParseNotesBlock s) :=
  answers_accept fun _ => answers_require fun _ => answers_require fun _ => answers_require fun _ =>
    answers_finish (parseNotes_careful s)

theorem parseBarsBlock_answers {s : State} (hr : s.fault = 0#4 → MayRead D .parseBarsBlock s) :
    Answers D s (execParseBarsBlock s) :=
  answers_accept fun hf => answers_require fun _ => answers_require fun hseq => answers_require fun _ =>
    answers_require fun _ => answers_finish (parseBars_careful ((hr hf).readable (by simp [hseq])))

theorem contentWord_answers {i : Instr} {w : Word} {s : State} (hr : MayRead D i s) : Answers D s (contentWord w s) := by
  unfold contentWord
  split
  · exact answers_finish (takeNotesContent_careful w _ s)
  · rename_i hp
    obtain ⟨hseq, _⟩ := position_due hp
    exact answers_finish (takeBarsContent_careful w _ (hr.readable (by simp [hseq])))
  · trivial

theorem count_answers (n : Word) (s : State) : Answers D s (execCount n s) := by
  refine answers_accept fun _ => answers_require fun _ => ?_
  split
  · exact ((silent_beginNotes s).trans (silent_takeNotesCount n _ _)).kept
  · split
    · exact answers_require fun _ => answers_finish ((silent_beginBars s).careful (takeBarsCount_careful n _ _ _))
    · trivial

theorem checksum_answers (c : Word) (s : State) : Answers D s (execChecksum c s) := by
  refine answers_accept fun _ => answers_require fun _ => ?_
  split
  · exact answers_finish (takeNotesChecksum_careful c _ s)
  · exact answers_finish (takeBarsChecksum_careful c _ s)
  · trivial

/-- Every instruction but `coreReset`, which empties `OUT`, and `runTweak`, which changes the mode before it runs. -/
theorem exec_answers {i : Instr} {s : State} (hreset : i ≠ .coreReset) (htweak : i ≠ .runTweak)
    (hr : s.fault = 0#4 → MayRead D i s) : Answers D s (exec i s) := by
  cases i with
  | coreReset => exact absurd rfl hreset
  | runTweak => exact absurd rfl htweak
  | setMode _ | setTempo _ _ | setGapLen _ => exact configure_answers ⟨rfl, rfl⟩
  | start => exact startRun_answers id ⟨rfl, rfl⟩
  | runDecoder => exact startRun_answers (fun _ => rfl) ⟨rfl, rfl⟩
  | fuStep => exact fuStep_answers s
  | fuEnd => exact fuEnd_answers s
  | readWord => exact readWord_answers s
  | peekGap => exact peekGap_answers s
  | verify e c => exact verify_answers e c s
  | articulationName c => exact articulationName_answers c s
  | barSlice k => exact barSlice_answers fun hf => (hr hf).resolve_right fun hm => hm.2 k rfl
  | writeWord w => exact tweakOnly_answers (k := fun s => setResult .none (putWord w s))
  | writeGap n => exact tweakOnly_answers (k := fun s => setResult .none (putGap n s))
  | decodeFrame _ _ _ | add _ _ | classify _ | decode _ | pitchInfo _ | decodeTempo _ | encodeTempo _
  | encodeNote _ _ _ _ _ | encodeFrame _ => exact answers_result _ s
  | parseNotesBlock => exact parseNotesBlock_answers s
  | parseTempoSubstitution => exact answers_accept fun _ => answers_require fun _ => parseNotesBlock_answers s
  | parseBarsBlock => exact parseBarsBlock_answers hr
  | bin _ _ | blank _ => exact answers_unit (fuFrame_careful _ _)
  | sep => exact answers_accept fun hf => answers_require fun _ => contentWord_answers (hr hf)
  | tempo _ | note _ _ _ _ _ _ | index _ =>
    exact answers_accept fun hf => answers_require fun _ => answers_require fun _ => contentWord_answers (hr hf)
  | count n => exact count_answers n s
  | checksum c => exact checksum_answers c s

/-- In `DECODE` mode an instruction that answers a next state, with or without a fault, has written nothing to `OUT`. -/
theorem exec_outKept {i : Instr} {s t : State} (hreset : i ≠ .coreReset) (htweak : i ≠ .runTweak)
    (hd : s.mode = .decode) (h : exec i s = .next t) : OutKept s t := by
  have ha : Answers True s (exec i s) := exec_answers hreset htweak fun _ => .inl (.inr trivial)
  rw [h] at ha
  exact ha hd

/-! ### No step stops the machine -/

theorem Answers.ne_fault {s : State} {o : Out} (h : Answers False s o) (f : Fault) : o ≠ .fault f := by
  rintro rfl
  exact h

/-- A run reads only what its own Notes blocks have written, whatever the state it begins with. -/
theorem startRun_ne_fault (u : State) (f : Fault) : startRun u ≠ .fault f := by
  have hrun : Silent u (setRunning u) := .of_regs rfl rfl rfl
  exact (answers_finish (hrun.careful (runVoices_careful _ _))).ne_fault f

theorem exec_ne_fault {i : Instr} {s : State} (hr : s.fault = 0#4 → MayRead False i s) (f : Fault) :
    exec i s ≠ .fault f := by
  by_cases hreset : i = .coreReset
  · subst hreset
    exact nofun
  · by_cases htweak : i = .runTweak
    · subst htweak
      intro h
      obtain ⟨_, _, h⟩ := accept_eq_fault.1 h
      exact startRun_ne_fault _ f (require_eq_fault.1 h).2
    · exact (exec_answers hreset htweak hr).ne_fault f

theorem run_ne_fault {i : Instr} {s : State} (hr : s.fault = 0#4 → MayRead False i s) (f : Fault) :
    (Fetched.run i s).out ≠ .fault f := exec_ne_fault hr f

/-- Where no fault is held, the cells are defined or a Notes block is half read (R41, R66). -/
theorem Inv.cellsDefined {s : State} (h : Inv s) (hf : s.fault = 0#4) (hm : ¬ midNotes s) : CellsDefined s :=
  ((live_iff s).1 (h.live hf)).2.cellsDefined hm

/-- The invariant lets every instruction but `barSlice` read `NOTES` where it does. -/
theorem Inv.mayRead {i : Instr} {s : State} (h : Inv s) (hi : ∀ k, i ≠ .barSlice k) (hf : s.fault = 0#4) :
    MayRead D i s := by
  by_cases hm : midNotes s
  · exact .inr ⟨hm, hi⟩
  · exact .inl (.inl (h.cellsDefined hf hm))

/-- The operations of the port are taken between blocks, so that all of them may read `NOTES` (R15). -/
theorem fetchOperation_ne_fault {s : State} (hs : Inv s) (hl : s.level = .operation) (f : Fault) :
    (fetchOperation s).out ≠ .fault f := by
  unfold fetchOperation
  split
  · exact nofun
  · split
    · refine run_ne_fault (fun hf => ?_) f
      exact .inl (.inl (hs.cellsDefined hf (hs.blockWhole hl)))
    · exact nofun

theorem fetchFrame_ne_fault {s : State} (hs : Inv s) (f : Fault) : (fetchFrame s).out ≠ .fault f := by
  unfold fetchFrame
  split
  · rename_i g _
    have hi : ∀ k, decodeFrameItem g ≠ .barSlice k := by
      intro k
      unfold decodeFrameItem
      split <;> exact nofun
    refine run_ne_fault (fun hf => ?_) f
    exact MayRead.of_blockRegs (hs.mayRead hi hf) rfl
  · exact run_ne_fault (hs.mayRead (i := .fuEnd) nofun) f

theorem decodeWordAt_ne_barSlice (pos : WordPos) (w k : Word) : decodeWordAt pos w ≠ .barSlice k := by
  cases pos with
  | notesContent =>
    unfold decodeWordAt
    dsimp only
    split <;> exact nofun
  | barsContent =>
    unfold decodeWordAt
    dsimp only
    split <;> exact nofun
  | notesCount | notesChecksum | barsCount | barsChecksum => exact nofun

/-- What a block operation does before it reads its count word leaves `NOTES` readable: a Notes block begins with no cell
and no count, and a Bars block leaves both alone (R192, R194). -/
theorem MayRead.beginBlock {i : Instr} {pos : WordPos} {s : State} (h : MayRead D i s) (hp : position s = some pos) :
    MayRead D i (beginBlock pos s) := by
  cases pos with
  | notesCount => exact .inl (.inl rfl)
  | barsCount =>
    have hseq : s.seq = .expectGap1 := position_due hp
    exact .inl ((h.readable (by simp [hseq])).congr rfl rfl)
  | notesContent | notesChecksum | barsContent | barsChecksum => exact h

theorem fetchDueWord_ne_fault {pos : WordPos} {s : State} (hs : Inv s) (hf : s.fault = 0#4)
    (hp : position s = some pos) (f : Fault) : (fetchDueWord pos s).out ≠ .fault f := by
  unfold fetchDueWord
  split
  · split
    · exact nofun
    · have hx : Careful False (beginBlock pos s) (readBlockWord (beginBlock pos s)) := readBlockWord_careful _
      split
      · rename_i r u hu
        have hread : MayRead False _ _ := (hs.mayRead (decodeWordAt_ne_barSlice pos r.w) hf).beginBlock hp
        exact run_ne_fault (fun _ => hread.of_blockRegs (readBlockWord_blockRegs hu)) f
      · exact nofun
      · rename_i g hg
        rw [hg] at hx
        exact hx.elim
  · exact nofun

theorem fetchWord_ne_fault {s : State} (hs : Inv s) (f : Fault) : (fetchWord s).out ≠ .fault f := by
  unfold fetchWord
  split
  · rename_i hrun
    obtain ⟨_, hf, _⟩ := hrun
    split
    · exact fetchDueWord_ne_fault hs hf ‹_› f
    · split
      · exact (answers_finish (afterBars_careful _ s)).ne_fault f
      · exact nofun
  · exact nofun

theorem step_ne_fault {s : State} (hs : Inv s) (f : Fault) : step s ≠ .fault f := by
  rw [step_eq]
  cases hl : s.level with
  | operation =>
    rw [fetch, hl]
    exact fetchOperation_ne_fault hs hl f
  | word =>
    rw [fetch, hl]
    exact fetchWord_ne_fault hs f
  | frame =>
    rw [fetch, hl]
    exact fetchFrame_ne_fault hs f

end Sys2Proof.Machine

/-! SUPPORT. The statements about the memory: the reads of `NOTES` and the writes of `OUT`. -/

namespace Sys2Proof.Proofs

open Sys2Proof.Machine

/-- Settles O56: where a step reads `NOTES`, the invariant says that the cells are defined. -/
theorem noStepReadsAnUndefinedCell : Obligations.NoStepReadsAnUndefinedCell := fun _ f hs => step_ne_fault hs f

/-- Settles O57: every part of every instruction is silent in `DECODE` mode, faults included. -/
theorem decodeModeWritesNothing : Obligations.DecodeModeWritesNothing :=
  fun _ _ _ hreset htweak hd h _ => exec_outKept hreset htweak hd h

end Sys2Proof.Proofs

/-! SUPPORT. The decoder undoes the encoder: the frames and words of the tape, then the operands of the command port. -/

namespace Sys2Proof

/-! ### Frames -/

/-- Bit 7 alone tells a binary frame from a blank one (R91). -/
theorem isBinary_append (b : BitVec 1) (low : BitVec 7) : isBinary (b ++ low) = b.getLsbD 0 := BitVec.getLsbD_append

theorem isBinary_binaryFrame (x : BitVec 1) (d : Data6) : isBinary (1#1 ++ x ++ d) = true := by
  have h1 : isBinary (1#1 ++ x ++ d) = (1#1 ++ x).getLsbD 1 := BitVec.getLsbD_append
  have h2 : (1#1 ++ x).getLsbD 1 = (1#1).getLsbD 0 := BitVec.getLsbD_append
  rw [h1, h2]
  rfl

theorem isBinary_blankFrame (low : BitVec 7) : isBinary (0#1 ++ low) = false := isBinary_append 0#1 low

/-- The data bits of a frame are its lowest six, whatever stands above them (R91). -/
theorem data6_append (x : BitVec 2) (d : Data6) : data6 (x ++ d) = d := BitVec.extractLsb'_append_eq_right

/-- A canonical binary frame is one with bit 6 clear (R92). -/
theorem binFrame_eq (d : Data6) : binFrame d = 1#1 ++ 0#1 ++ d := by
  have hflag : Config.binFlag = (1#1 ++ 0#1) ++ 0#6 := rfl
  have hdata : d.setWidth 8 = 0#2 ++ d := BitVec.setWidth_eq_append (by omega)
  rw [binFrame, hflag, hdata, BitVec.or_append, BitVec.or_zero, BitVec.zero_or]

@[simp] theorem isBinary_binFrame (d : Data6) : isBinary (binFrame d) = true := by
  rw [binFrame_eq, isBinary_binaryFrame]

@[simp] theorem data6_binFrame (d : Data6) : data6 (binFrame d) = d := by
  rw [binFrame_eq, data6_append]

theorem decodeFrameItem_binaryFrame (x : BitVec 1) (d : Data6) : decodeFrameItem (1#1 ++ x ++ d) = .bin x d := by
  have hx : (1#1 ++ x ++ d).extractLsb' 6 1 = x :=
    (BitVec.extractLsb'_append_eq_of_le (Nat.le_refl 6)).trans BitVec.extractLsb'_append_eq_right
  rw [decodeFrameItem, if_pos (isBinary_binaryFrame x d), hx, data6_append]

theorem decodeFrameItem_blankFrame (low : BitVec 7) : decodeFrameItem (0#1 ++ low) = .blank low := by
  have hlow : (0#1 ++ low).extractLsb' 0 7 = low := BitVec.extractLsb'_append_eq_right
  rw [decodeFrameItem, isBinary_blankFrame, hlow]
  rfl

/-! ### Words -/

/-- The three groups of a word, put together again (R93). -/
theorem groups_append (w : Word) : w.extractLsb' 12 6 ++ w.extractLsb' 6 6 ++ w.extractLsb' 0 6 = w := by
  rw [BitVec.extractLsb'_append_extractLsb'_eq_extractLsb' (by rfl)]
  exact BitVec.extractLsb'_append_extractLsb'

/-- `decodeFrame` undoes `encodeFrame` (R131, R221). -/
theorem decodeFrame_encodeFrame (w : Word) :
    decodeFrame (encodeFrame w).1 (encodeFrame w).2.1 (encodeFrame w).2.2 = some w := by
  simp [decodeFrame, encodeFrame, groups_append]

theorem decode_word_of_decodeFrame {f0 f1 f2 : Frame} {w : Word} (h : decodeFrame f0 f1 f2 = some w) (pos : WordPos)
    (rest : List Byte) : decode (.word pos) (f0 :: f1 :: f2 :: rest) = .ok (decodeWordAt pos w, rest) := by
  simp [decode, decodeWordBytes, h]

/-- The frames of a word decode to the item the word is at its position (R93, R94). -/
theorem decode_wordFrames (pos : WordPos) (w : Word) (rest : List Byte) :
    decode (.word pos) (wordFrames w ++ rest) = .ok (decodeWordAt pos w, rest) :=
  decode_word_of_decodeFrame (decodeFrame_encodeFrame w) pos rest

/-! ### Content words by their patterns -/

theorem classify_eq_sep_iff {w : Word} : classify w = .sep ↔ w = Config.sep := by
  by_cases hsep : w = Config.sep
  · simp [classify, hsep]
  · by_cases htag : w &&& Config.tempoTag = Config.tempoTag <;> simp [classify, hsep, htag]

theorem classify_eq_tempo_iff {w : Word} :
    classify w = .tempo ↔ w ≠ Config.sep ∧ w &&& Config.tempoTag = Config.tempoTag := by
  by_cases hsep : w = Config.sep
  · simp [classify, hsep]
  · by_cases htag : w &&& Config.tempoTag = Config.tempoTag <;> simp [classify, hsep, htag]

/-- A tempo word carries the tag, which the separator does not (R96, R98). -/
theorem classify_tempoWord (t : Tempo15) : classify (tempoWord t) = .tempo := by
  have htag : tempoWord t &&& Config.tempoTag = Config.tempoTag := by
    rw [tempoWord]
    ext i hi
    rw [BitVec.getElem_and, BitVec.getElem_or]
    cases Config.tempoTag[i] <;> simp
  have hsep : tempoWord t ≠ Config.sep := by
    intro h
    rw [h] at htag
    exact absurd htag (by decide)
  exact classify_eq_tempo_iff.2 ⟨hsep, htag⟩

/-- The parameter of a tempo word is the one it was made of (R96, R97). -/
theorem tempo15_tempoWord (t : Tempo15) : tempo15 (tempoWord t) = t := by
  have htag : Config.tempoTag.setWidth 15 = 0#15 := rfl
  have hmask : Config.tempoMask.setWidth 15 = BitVec.allOnes 15 := rfl
  have ht : (t.setWidth 18).setWidth 15 = t := by simp
  rw [tempo15, tempoWord, BitVec.setWidth_and, BitVec.setWidth_or, htag, hmask, ht, BitVec.zero_or, BitVec.and_allOnes]

/-- Each field of a note row is read above the fields that stand below it (R99). -/
theorem noteInstr_noteWord (hi : BitVec 2) (triplet : BitVec 1) (artMid : BitVec 2) (shared : BitVec 1)
    (pitchLow : BitVec 5) (duration : BitVec 7) :
    noteInstr (noteWord hi triplet artMid shared pitchLow duration) =
      .note hi triplet artMid shared pitchLow duration := by
  unfold noteInstr noteWord
  congr 1
  · iterate 4 rw [BitVec.extractLsb'_append_eq_of_le (by decide)]
    exact BitVec.extractLsb'_append_eq_left
  · iterate 4 rw [BitVec.extractLsb'_append_eq_of_le (by decide)]
    exact BitVec.extractLsb'_append_eq_right
  · iterate 3 rw [BitVec.extractLsb'_append_eq_of_le (by decide)]
    exact BitVec.extractLsb'_append_eq_right
  · iterate 2 rw [BitVec.extractLsb'_append_eq_of_le (by decide)]
    exact BitVec.extractLsb'_append_eq_right
  · rw [BitVec.extractLsb'_append_eq_of_le (by decide)]
    exact BitVec.extractLsb'_append_eq_right
  · exact BitVec.extractLsb'_append_eq_right

/-- A field of a word that carries the tempo tag has the tag's set bits. -/
theorem extract_of_tag {w : Word} (h : w &&& Config.tempoTag = Config.tempoTag) {start len : Nat}
    (hones : Config.tempoTag.extractLsb' start len = BitVec.allOnes len) :
    w.extractLsb' start len = BitVec.allOnes len := by
  rw [← hones, ← h, BitVec.extractLsb'_and, hones, BitVec.and_allOnes]

/-- A word whose bits spell a well-formed note row is a note word (R98, R99). -/
theorem classify_of_noteInstr_wellFormed {w : Word} (h : (noteInstr w).wellFormed = true) : classify w = .note := by
  cases hc : classify w with
  | note => rfl
  | sep =>
    rw [classify_eq_sep_iff.1 hc] at h
    exact absurd h (by decide)
  | tempo =>
    obtain ⟨_, htag⟩ := classify_eq_tempo_iff.1 hc
    have hhi : w.extractLsb' 16 2 = 3#2 := extract_of_tag htag rfl
    have htriplet : w.extractLsb' 15 1 = 1#1 := extract_of_tag htag rfl
    simp [noteInstr, Instr.wellFormed, noteFieldsOk, hhi, htriplet] at h

theorem decodeWordAt_tempoWord (t : Tempo15) : decodeWordAt .notesContent (tempoWord t) = .tempo t := by
  simp [decodeWordAt, classify_tempoWord, tempo15_tempoWord]

theorem decodeWordAt_noteWord {hi : BitVec 2} {triplet : BitVec 1} {artMid : BitVec 2} {shared : BitVec 1}
    {pitchLow : BitVec 5} {duration : BitVec 7}
    (h : (Instr.note hi triplet artMid shared pitchLow duration).wellFormed = true) :
    decodeWordAt .notesContent (noteWord hi triplet artMid shared pitchLow duration) =
      .note hi triplet artMid shared pitchLow duration := by
  have hbits := noteInstr_noteWord hi triplet artMid shared pitchLow duration
  have hclass := classify_of_noteInstr_wellFormed (hbits ▸ h)
  simp [decodeWordAt, hclass, hbits]

theorem decodeWordAt_index {k : Word} (h : (Instr.index k).wellFormed = true) :
    decodeWordAt .barsContent k = .index k := by
  have hk : k ≠ Config.sep := by simpa [Instr.wellFormed, indexOk] using h
  exact if_neg hk

/-! ### Operands of the command port -/

@[simp] theorem withByte_cons (b : Byte) (bs : List Byte) (k : Byte → List Byte → Decoded) :
    withByte (b :: bs) k = k b bs := rfl

theorem withTempo15_tempo15Bytes (t : Tempo15) (rest : List Byte) (k : Tempo15 → List Byte → Decoded) :
    withTempo15 (tempo15Bytes t ++ rest) k = k t rest := by
  have ht : ((t.extractLsb' 8 7).setWidth 8 ++ t.extractLsb' 0 8).setWidth 15 = t :=
    calc
      _ = ((t.extractLsb' 8 7).setWidth 8).setWidth 7 ++ (t.extractLsb' 0 8).setWidth 8 :=
        BitVec.setWidth_append_of_eq rfl
      _ = t.extractLsb' 8 7 ++ t.extractLsb' 0 8 := by simp
      _ = t := BitVec.extractLsb'_append_extractLsb'
  exact congrArg (k · rest) ht

theorem withWord_wordBytes (w : Word) (rest : List Byte) (k : Word → List Byte → Decoded) :
    withWord (wordBytes w ++ rest) k = k w rest := by
  have hw : ((w.extractLsb' 16 2).setWidth 8 ++ w.extractLsb' 8 8 ++ w.extractLsb' 0 8).setWidth 18 = w :=
    calc
      _ = ((w.extractLsb' 16 2).setWidth 8 ++ w.extractLsb' 8 8).setWidth 10 ++ (w.extractLsb' 0 8).setWidth 8 :=
        BitVec.setWidth_append_of_eq rfl
      _ = (((w.extractLsb' 16 2).setWidth 8).setWidth 2 ++ (w.extractLsb' 8 8).setWidth 8) ++
            (w.extractLsb' 0 8).setWidth 8 := congrArg (· ++ _) (BitVec.setWidth_append_of_eq rfl)
      _ = w.extractLsb' 16 2 ++ w.extractLsb' 8 8 ++ w.extractLsb' 0 8 := by simp
      _ = w.extractLsb' 8 10 ++ w.extractLsb' 0 8 :=
        congrArg (· ++ _) (BitVec.extractLsb'_append_extractLsb'_eq_extractLsb' rfl)
      _ = w := BitVec.extractLsb'_append_extractLsb'
  exact congrArg (k · rest) hw

/-- Bit 7 of an operand byte, as arithmetic. -/
theorem getLsbD_seven (b : Byte) : b.getLsbD 7 = decide (128 ≤ b.toNat) :=
  (BitVec.msb_eq_getLsbD_last b).symm.trans (BitVec.msb_eq_decide b)

/-- A digit below 128 is the last (log 1). -/
theorem readNat_last {b : Byte} (h : b.toNat < 128) (rest : List Byte) :
    readNat (b :: rest) = some (b.toNat, rest) := by
  rw [readNat, getLsbD_seven, if_neg (by simpa using h)]

/-- A digit from 128 on is followed by the higher digits (log 1). -/
theorem readNat_more {b : Byte} {bs rest : List Byte} {n : Nat} (h : 128 ≤ b.toNat)
    (hn : readNat bs = some (n, rest)) :
    readNat (b :: bs) = some (b.toNat - 128 + 128 * n, rest) := by
  have hdigit : (b.setWidth 7).toNat = b.toNat - 128 := by
    rw [BitVec.toNat_setWidth]
    omega
  rw [readNat, getLsbD_seven, if_pos (by simpa using h), hn, hdigit]

/-- The digits of a number read back as it, given fuel for all of them (log 1). -/
theorem readNat_natDigits (rest : List Byte) (fuel : Nat) :
    ∀ n ≤ fuel, readNat (natDigits fuel n ++ rest) = some (n, rest) := by
  induction fuel with
  | zero =>
    intro n hn
    obtain rfl : n = 0 := Nat.le_zero.1 hn
    rfl
  | succ fuel ih =>
    intro n hn
    unfold natDigits
    split
    case isTrue hlast =>
      have hval : (BitVec.ofNat 8 n).toNat = n := Nat.mod_eq_of_lt (by omega)
      simpa [hval] using readNat_last (b := BitVec.ofNat 8 n) (by omega) rest
    case isFalse hmore =>
      have hval : (BitVec.ofNat 8 (128 + n % 128)).toNat = 128 + n % 128 := Nat.mod_eq_of_lt (by omega)
      refine (readNat_more (by omega) (ih (n / 128) (by omega))).trans ?_
      rw [hval, Nat.add_sub_cancel_left, Nat.mod_add_div]

theorem withNat_natBytes (n : Nat) (rest : List Byte) (k : Nat → List Byte → Decoded) :
    withNat (natBytes n ++ rest) k = k n rest := by
  rw [withNat, natBytes, readNat_natDigits rest n n (Nat.le_refl n)]

/-- A byte below 32 is the code of an operation, its operands after it (R110; log 1). -/
theorem decode_port_code {c : Nat} (h : c < 32) (operands : List Byte) :
    decode .port (BitVec.ofNat 8 c :: operands) = decodeOperation c operands := by
  have hhigh : (BitVec.ofNat 8 c).extractLsb' 5 3 = 0#3 := by
    apply BitVec.eq_of_toNat_eq
    simp [Nat.shiftRight_eq_div_pow]
    omega
  have hcode : ((BitVec.ofNat 8 c).extractLsb' 0 5).toNat = c := by
    simp
    omega
  simp [decode, decodePort, hhigh, hcode]

/-- Every operation of the command port decodes from its encoding; the cases are grouped by the operands (R110). -/
theorem decode_encode_port {i : Instr} (hi : i.source = .port) (rest : List Byte) :
    decode .port (encode i ++ rest) = .ok (i, rest) := by
  cases i with
  | setMode m => cases m <;> rfl
  | setTempo en t =>
    rw [encode, List.cons_append, decode_port_code (by decide), decodeOperation, List.cons_append, withByte_cons,
      withTempo15_tempo15Bytes]
    cases en <;> rfl
  | setGapLen n | encodeTempo n | writeGap n =>
    rw [encode, List.cons_append, decode_port_code (by decide), decodeOperation, withNat_natBytes]
  | add a b | verify a b =>
    rw [encode, List.cons_append, decode_port_code (by decide), decodeOperation, List.append_assoc,
      withWord_wordBytes, withWord_wordBytes]
  | classify w | decode w | decodeTempo w | barSlice w | writeWord w | encodeFrame w =>
    rw [encode, List.cons_append, decode_port_code (by decide), decodeOperation, withWord_wordBytes]
  | pitchInfo _ | articulationName _ | encodeNote _ _ _ _ _ =>
    rw [encode, List.cons_append, decode_port_code (by decide), decodeOperation]
    simp
  | bin _ _ | blank _ | sep | tempo _ | note _ _ _ _ _ _ | count _ | checksum _ | index _ => cases hi
  | _ => rfl

/-! ### Every instruction -/

/-- The frames of a word decode to any item the word is at its position. -/
theorem decode_wordFrames_of {pos : WordPos} {w : Word} {i : Instr} (h : decodeWordAt pos w = i) (rest : List Byte) :
    decode (.word pos) (wordFrames w ++ rest) = .ok (i, rest) := by
  rw [decode_wordFrames, h]

/-- A frame decodes to the item it is (R90). -/
theorem decode_frame_cons (f : Frame) (rest : List Byte) :
    decode .frame (f :: rest) = .ok (decodeFrameItem f, rest) := rfl

/-- Decode after encode, by where the instruction is decoded from: a frame, a word at its position, the port. -/
theorem decode_encode {i : Instr} (h : i.wellFormed = true) (rest : List Byte) :
    decode i.source (encode i ++ rest) = .ok (i, rest) := by
  cases i with
  | bin x d => exact (decode_frame_cons _ rest).trans (by rw [decodeFrameItem_binaryFrame])
  | blank low => exact (decode_frame_cons _ rest).trans (by rw [decodeFrameItem_blankFrame])
  | sep | count n | checksum c => exact decode_wordFrames_of rfl rest
  | tempo t => exact decode_wordFrames_of (decodeWordAt_tempoWord t) rest
  | note _ _ _ _ _ _ => exact decode_wordFrames_of (decodeWordAt_noteWord h) rest
  | index k => exact decode_wordFrames_of (decodeWordAt_index h) rest
  | _ => exact decode_encode_port rfl rest

end Sys2Proof

/-! SUPPORT. What a step fetches where the bytes due decode (R110, R132, R191), and BIN and BLANK as what FU
does (R90). -/

namespace Sys2Proof.Machine

theorem step_of_fetch_run {s s' : State} {i : Instr} (h : fetch s = .run i s') : step s = exec i s' := by
  rw [step, h]

theorem fetch_of_operation {s : State} (h : s.level = .operation) : fetch s = fetchOperation s := by rw [fetch, h]

theorem fetch_of_word {s : State} (h : s.level = .word) : fetch s = fetchWord s := by rw [fetch, h]

theorem fetch_of_frame {s : State} (h : s.level = .frame) : fetch s = fetchFrame s := by rw [fetch, h]

/-- The bytes at the port that decode to an operation are taken (R110). -/
theorem fetchOperation_run {s : State} {i : Instr} {rest : List Byte} (h : decode .port s.port = .ok (i, rest)) :
    fetchOperation s = .run i { s with port := rest } := by
  cases hp : s.port with
  | nil =>
    rw [hp] at h
    cases h
  | cons b bs =>
    rw [hp] at h
    simp only [fetchOperation, hp, h]

/-- The frame at `ipos` is passed (R132). -/
theorem fetchFrame_run {s : State} {f : Frame} (h : nextFrame s = some f) :
    fetchFrame s = .run (decodeFrameItem f) (passFrame s) := by
  rw [fetchFrame, h]

/-- In a run the word due is read by FU and is the item of its position (R94, R191). -/
theorem fetchWord_run {s s' : State} {pos : WordPos} {r : BlockWord} (hrun : s.status.running = true) (hready : Ready s)
    (hfcnt : s.fcnt = 0#2) (hpos : position s = some pos) (hvalid : pos = .barsCount → s.notesValid = true)
    (hread : readBlockWord (beginBlock pos s) = .done r s') : fetchWord s = .run (decodeWordAt pos r.w) s' := by
  have hnotes : ¬ (pos = .barsCount ∧ s.notesValid = false) := fun ⟨hp, hv⟩ => by simp [hvalid hp] at hv
  have hdue : fetchWord s = fetchDueWord pos s := by rw [fetchWord, if_pos ⟨hrun, hready⟩, hpos]
  rw [hdue, fetchDueWord, if_pos hfcnt, if_neg hnotes, hread]

/-! ### BIN and BLANK -/

theorem exec_bin (x : BitVec 1) (d : Data6) (s : State) :
    exec (.bin x d) s = acceptUnit s fun u => finish frameResult (fuFrame (1#1 ++ x ++ d) u) := rfl

theorem exec_blank (low : BitVec 7) (s : State) :
    exec (.blank low) s = acceptUnit s fun u => finish frameResult (fuFrame (0#1 ++ low) u) := rfl

end Sys2Proof.Machine

/-! SUPPORT. The statements about the decoder, the encoder and the fetch of an instruction. -/

namespace Sys2Proof.Proofs

open Sys2Proof.Machine

/-- Settles O53: the decoder undoes the encoder operand by operand, field by field, group by group. -/
theorem decodeOfEncodeIsTheInstruction : Obligations.DecodeOfEncodeIsTheInstruction :=
  ⟨fun _ rest h => decode_encode h rest, decode_wordFrames_of rfl, fun _ => decode_wordFrames_of rfl,
    fun _ => decode_wordFrames_of rfl⟩

/-- Settles O7: the ignored bits are not among those that FU looks at. -/
theorem frameItemsDriveTheUnpacker : Obligations.FrameItemsDriveTheUnpacker := by
  intro s x d b ⟨hf, hd⟩ hout
  refine ⟨fun hfcnt => ?_, fun hfcnt => ?_, fun hfcnt => ?_, fun hfcnt => ?_⟩
  · rw [exec_bin, acceptUnit_of_ready _ hf hd,
      fuFrame_part (s := drive s) (isBinary_binaryFrame x d) hfcnt, data6_append]
    rfl
  · rw [exec_bin, acceptUnit_of_ready _ hf hd,
      fuFrame_last (s := drive s) (isBinary_binaryFrame x d) hfcnt, data6_append]
    rfl
  · rw [exec_blank, acceptUnit_of_ready _ hf hd,
      fuFrame_blank (s := drive s) (isBinary_blankFrame b) hfcnt]
    rfl
  · rw [exec_blank, acceptUnit_of_ready _ hf hd,
      fuFrame_inner_blank (s := drive s) (isBinary_blankFrame b) hfcnt]
    exact ⟨_, rfl, rfl, rfl, rfl, by simp [hd, hout]⟩

/-- Settles O51: at each level the decoder's answer is what is fetched. -/
theorem stepRunsTheDecodedInstruction : Obligations.StepRunsTheDecodedInstruction := by
  refine ⟨fun s i rest hl h => step_of_fetch_run ((fetch_of_operation hl).trans (fetchOperation_run h)),
    fun s f i hl hf h => ?_, fun s s' pos r i rest hl hrun hready hfcnt hpos hvalid hread h => ?_⟩
  · rw [decode_frame_cons] at h
    cases h
    exact step_of_fetch_run ((fetch_of_frame hl).trans (fetchFrame_run hf))
  · rw [decode_wordFrames] at h
    cases h
    exact step_of_fetch_run ((fetch_of_word hl).trans (fetchWord_run hrun hready hfcnt hpos hvalid hread))

/-- Settles O54: the decoder evaluated on the bytes written out. -/
theorem spelledWordsDecode : Obligations.SpelledWordsDecode :=
  ⟨rfl, rfl, rfl, rfl, rfl, rfl, rfl, rfl⟩

end Sys2Proof.Proofs

/-! SUPPORT. The frame codec bit by bit: a frame is its flag and its data bits, and three groups shifted in are a word
(R91, R131, R132). -/

namespace Sys2Proof

theorem decodeFrame_eq_some_iff {f0 f1 f2 : Frame} {w : Word} :
    decodeFrame f0 f1 f2 = some w ↔
      (isBinary f0 = true ∧ isBinary f1 = true ∧ isBinary f2 = true) ∧ data6 f0 ++ data6 f1 ++ data6 f2 = w := by
  unfold decodeFrame
  split <;> simp_all [and_assoc]

theorem decodeFrame_of_binary {f0 f1 f2 : Frame} (h0 : isBinary f0 = true) (h1 : isBinary f1 = true)
    (h2 : isBinary f2 = true) : decodeFrame f0 f1 f2 = some (data6 f0 ++ data6 f1 ++ data6 f2) :=
  decodeFrame_eq_some_iff.2 ⟨⟨h0, h1, h2⟩, rfl⟩

theorem decodeFrame_of_blank {f0 f1 f2 : Frame}
    (h : isBinary f0 = false ∨ isBinary f1 = false ∨ isBinary f2 = false) : decodeFrame f0 f1 f2 = none := by
  rcases h with h | h | h <;> simp [decodeFrame, h]

/-- The bits of `acc` after a group is shifted in below the others (R132). -/
theorem getLsbD_shiftIn (a : Word) (d : Data6) (i : Nat) :
    ((a <<< 6) ||| d.setWidth 18).getLsbD i = if i < 6 then d.getLsbD i else decide (i < 18) && a.getLsbD (i - 6) := by
  by_cases h : i < 6
  · have h18 : i < 18 := by omega
    simp [h, h18]
  · simp [h, BitVec.getLsbD_of_ge d i (by omega)]

/-- Three groups shifted into `acc` are the word, whatever stood there before: `acc` holds three groups (R132, R64). -/
theorem shiftIn_three (a : Word) (d0 d1 d2 : Data6) :
    (((((a <<< 6) ||| d0.setWidth 18) <<< 6) ||| d1.setWidth 18) <<< 6) ||| d2.setWidth 18 = d0 ++ d1 ++ d2 := by
  apply BitVec.eq_of_getLsbD_eq
  intro i hi
  simp only [getLsbD_shiftIn, BitVec.getLsbD_append]
  grind

/-- Bit 7 of a frame is its flag (R90, R91). -/
theorem flag_eq_isBinary (f : Frame) : f.extractLsb' 7 1 = BitVec.ofBool (isBinary f) := by
  apply BitVec.eq_of_getLsbD_eq
  intro i hi
  interval_cases i
  simp [isBinary]

/-- A binary frame is its flag, its ignored bit and its data bits (R90, R91). -/
theorem binaryFrame_eq {f : Frame} (h : isBinary f = true) : 1#1 ++ f.extractLsb' 6 1 ++ data6 f = f := by
  have hflag : (1#1 : BitVec 1) = f.extractLsb' 7 1 := by simp [flag_eq_isBinary, h]
  rw [hflag, BitVec.extractLsb'_append_extractLsb'_eq_extractLsb' (by rfl)]
  exact BitVec.extractLsb'_append_extractLsb'

/-- A blank frame is its flag and its ignored bits (R90, R91). -/
theorem blankFrame_eq {f : Frame} (h : isBinary f = false) : 0#1 ++ f.extractLsb' 0 7 = f := by
  have hflag : (0#1 : BitVec 1) = f.extractLsb' 7 1 := by simp [flag_eq_isBinary, h]
  rw [hflag]
  exact BitVec.extractLsb'_append_extractLsb'

end Sys2Proof

/-! SUPPORT. FU frame by frame, and `readWord` over the frames to come: blank frames, then a word, a broken group or the end
of the stream (R132 to R136). -/

namespace Sys2Proof.Machine

variable {s t : State} {f : Frame}

/-! ### FU at a frame and at the end of the stream -/

/-- Between words `fuEnd` yields the blank frames counted (R134). -/
theorem fuAtEnd_between (h : s.fcnt = 0#2) : fuAtEnd s = .done s.gap { s with streamEnded := true } := if_pos h

/-- Inside a word it raises MalformedInput (R134). -/
theorem fuAtEnd_inside (h : s.fcnt ≠ 0#2) :
    fuAtEnd s = .raised (raise .malformedInput { infoAt (some s.widx) s with sub := some 2 } s) := if_neg h

/-- A fault delivered leaves the registers it defines as R281 says. -/
theorem faultHeld_faultResult {k : FaultKind} {info : FInfo} (hdone : s.status.done = false)
    (hout : s.status.outValid = false) : faultHeld k info (faultResult (raise k info s)) :=
  ⟨rfl, rfl, rfl, by simp [faultResult, hdone, hout]⟩

theorem exec_fuStep_frame (hr : Ready s) (h : s.tape[s.ipos]? = some f) :
    exec .fuStep s = finish frameResult (fuFrame f (passFrame (drive s))) := by
  have hn : nextFrame (drive s) = some f := h
  rw [exec, execFuStep, acceptUnit_of_ready _ hr.1 hr.2, hn]

theorem exec_fuStep_none (hr : Ready s) (h : s.tape[s.ipos]? = none) : exec .fuStep s = .refused .noFrame := by
  have hn : nextFrame (drive s) = none := h
  rw [exec, execFuStep, acceptUnit_of_ready _ hr.1 hr.2, hn]

theorem exec_fuEnd_none (hr : Ready s) (h : s.tape[s.ipos]? = none) :
    exec .fuEnd s = finish .endOfStream (fuAtEnd (drive s)) := by
  have hn : nextFrame (drive s) = none := h
  rw [exec, execFuEnd, acceptUnit_of_ready _ hr.1 hr.2, hn]

theorem exec_fuEnd_frame (hr : Ready s) (h : s.tape[s.ipos]? = some f) : exec .fuEnd s = .refused .framesRemain := by
  have hn : nextFrame (drive s) = some f := h
  rw [exec, execFuEnd, acceptUnit_of_ready _ hr.1 hr.2, hn]

/-- A frame executed as the item it is (R90) is what FU does with that frame. -/
theorem exec_decodeFrameItem (f : Frame) (s : State) :
    exec (decodeFrameItem f) s = acceptUnit s fun u => finish frameResult (fuFrame f u) := by
  cases h : isBinary f with
  | true =>
    have hitem := decodeFrameItem_binaryFrame (f.extractLsb' 6 1) (data6 f)
    rw [binaryFrame_eq h] at hitem
    rw [hitem, exec_bin, binaryFrame_eq h]
  | false =>
    have hitem := decodeFrameItem_blankFrame (f.extractLsb' 0 7)
    rw [blankFrame_eq h] at hitem
    rw [hitem, exec_blank, blankFrame_eq h]

/-! ### `readWord` frame by frame -/

/-- A frame that completes no word is followed by the next (R133). -/
theorem readFrames_cons_none (fs : List Frame) (h : fuFrame f (passFrame s) = .done none t) :
    readFrames (f :: fs) s = readFrames fs t := by
  rw [readFrames, h, bind_done]

/-- A frame that completes a word ends the read (R133). -/
theorem readFrames_cons_some {w : Word} {g : Nat} (fs : List Frame)
    (h : fuFrame f (passFrame s) = .done (some (w, g)) t) : readFrames (f :: fs) s = .done (.word w g) t := by
  rw [readFrames, h, bind_done]

/-- So does a frame that raises a fault (R281). -/
theorem readFrames_cons_raised (fs : List Frame) (h : fuFrame f (passFrame s) = .raised t) :
    readFrames (f :: fs) s = .raised t := by
  rw [readFrames, h, bind_raised]

/-- FU after a blank frame between words (R132). -/
def takeBlank (s : State) : State := { s with ipos := s.ipos + 1, gap := s.gap + 1, streamEnded := false }

/-- FU after `n` blank frames between words (R132). -/
def passBlanks (n : Nat) (s : State) : State :=
  { s with ipos := s.ipos + n, gap := s.gap + n, streamEnded := if n = 0 then s.streamEnded else false }

theorem passBlanks_takeBlank (n : Nat) (s : State) : passBlanks n (takeBlank s) = passBlanks (n + 1) s := by
  simp [passBlanks, takeBlank, Nat.add_assoc, Nat.add_comm 1 n]

/-- Blank frames between words are counted, and the read goes on (R133). -/
theorem readFrames_blanks {bl : List Frame} (hbl : ∀ f ∈ bl, isBinary f = false) (fs : List Frame)
    (hc : s.fcnt = 0#2) : readFrames (bl ++ fs) s = readFrames fs (passBlanks bl.length s) := by
  induction bl generalizing s with
  | nil => rfl
  | cons f bl ih =>
    obtain ⟨hf, hbl⟩ := List.forall_mem_cons.1 hbl
    calc readFrames (f :: (bl ++ fs)) s
      _ = readFrames (bl ++ fs) (takeBlank s) := readFrames_cons_none _ (fuFrame_blank (s := passFrame s) hf hc)
      _ = readFrames fs (passBlanks bl.length (takeBlank s)) := ih hbl (s := takeBlank s) hc
      _ = readFrames fs (passBlanks (bl.length + 1) s) := by rw [passBlanks_takeBlank]

/-- FU after a frame taken as the first or second of a word (R132). -/
def takePart (f : Frame) (s : State) : State :=
  { s with
    ipos := s.ipos + 1, acc := (s.acc <<< 6) ||| (data6 f).setWidth 18, fcnt := s.fcnt + 1#2, streamEnded := false }

theorem readFrames_part (fs : List Frame) (hf : isBinary f = true) (hc : s.fcnt ≠ 2#2) :
    readFrames (f :: fs) s = readFrames fs (takePart f s) :=
  readFrames_cons_none fs (fuFrame_part (s := passFrame s) hf hc)

/-- At the end of the stream between words the read yields the blank frames counted (R133). -/
theorem readFrames_end (hc : s.fcnt = 0#2) :
    readFrames [] s = .done (.endOfStream s.gap) { s with streamEnded := true } := by
  rw [readFrames, fuAtEnd_between hc, bind_done]

/-- Between words, three binary frames are a word with the gap counted (R133). -/
theorem readFrames_word {f0 f1 f2 : Frame} {w : Word} (rest : List Frame) (hw : decodeFrame f0 f1 f2 = some w)
    (hc : s.fcnt = 0#2) :
    readFrames (f0 :: f1 :: f2 :: rest) s =
      .done (.word w s.gap)
        { s with
          ipos := s.ipos + 3, acc := 0#18, gap := 0, widx := s.widx + 1, wordGap := s.gap, streamEnded := false } := by
  obtain ⟨⟨h0, h1, h2⟩, rfl⟩ := decodeFrame_eq_some_iff.1 hw
  have hc1 : (takePart f0 s).fcnt = 1#2 := by simp [takePart, hc]
  have hc2 : (takePart f1 (takePart f0 s)).fcnt = 2#2 := by rw [takePart, hc1]; rfl
  rw [readFrames_part _ h0 (by simp [hc]), readFrames_part _ h1 (by simp [hc1]),
    readFrames_cons_some _ (fuFrame_last (s := passFrame (takePart f1 (takePart f0 s))) h2 hc2),
    ← shiftIn_three s.acc, ← hc]
  rfl

/-- A state in which MalformedInput was raised inside the word that `s` stands at; FU may have gone on before. -/
def Malformed (sub : Nat) (s t : State) : Prop :=
  ∃ u, onlyFu s u ∧ t = raise .malformedInput { infoAt (some s.widx) s with sub := some sub } u

/-- Inside a word, a blank frame or the end of the stream is MalformedInput (R132, R134). -/
theorem readFrames_break {next : List Frame} {sub : Nat} (hn : breaksGroup next sub = true) (hc : s.fcnt ≠ 0#2) :
    ∃ t, readFrames next s = .raised t ∧ Malformed sub s t := by
  cases next with
  | nil =>
    obtain rfl : sub = 2 := by simpa [breaksGroup] using hn
    refine ⟨_, ?_, s, rfl, rfl⟩
    rw [readFrames, fuAtEnd_inside hc, bind_raised]
  | cons f next =>
    obtain ⟨hf, rfl⟩ : isBinary f = false ∧ sub = 1 := by simpa [breaksGroup] using hn
    exact ⟨_, readFrames_cons_raised next (fuFrame_inner_blank (s := passFrame s) hf hc), passFrame s, rfl, rfl⟩

/-- What FU assembles before the group breaks leaves the fault the same. -/
theorem Malformed.of_takePart {sub : Nat} (h : Malformed sub (takePart f s) t) : Malformed sub s t := by
  obtain ⟨u, hu, rfl⟩ := h
  exact ⟨u, onlyFu_trans rfl hu, rfl⟩

theorem Malformed.of_passBlanks {sub n : Nat} (h : Malformed sub (passBlanks n s) t) : Malformed sub s t := by
  obtain ⟨u, hu, rfl⟩ := h
  exact ⟨u, onlyFu_trans rfl hu, rfl⟩

/-- What is defined after such a fault, FU having written nothing else of it (R281). -/
theorem Malformed.held {sub : Nat} (h : Malformed sub s t) (hdone : s.status.done = false)
    (hout : s.status.outValid = false) :
    faultHeld .malformedInput { widx := some s.widx, blk := some s.blk, voice := some s.voice, sub := some sub }
      (faultResult t) := by
  obtain ⟨u, hu, rfl⟩ := h
  have hstatus : u.status = s.status := by rw [hu]
  exact faultHeld_faultResult (hstatus ▸ hdone) (hstatus ▸ hout)

/-- Between words, one or two binary frames and then a blank frame or the end are MalformedInput (R133, R272). -/
theorem readFrames_broken {f0 : Frame} {f1 : Option Frame} {next : List Frame} {sub : Nat} (h0 : isBinary f0 = true)
    (h1 : ∀ f ∈ f1, isBinary f = true) (hn : breaksGroup next sub = true) (hc : s.fcnt = 0#2) :
    ∃ t, readFrames (f0 :: (f1.toList ++ next)) s = .raised t ∧ Malformed sub s t := by
  have hc1 : (takePart f0 s).fcnt = 1#2 := by simp [takePart, hc]
  rw [readFrames_part _ h0 (by simp [hc])]
  cases f1 with
  | none =>
    obtain ⟨t, ht, hm⟩ := readFrames_break hn (s := takePart f0 s) (by simp [hc1])
    exact ⟨t, ht, hm.of_takePart⟩
  | some f1 =>
    have hc2 : (takePart f1 (takePart f0 s)).fcnt = 2#2 := by rw [takePart, hc1]; rfl
    obtain ⟨t, ht, hm⟩ := readFrames_break hn (s := takePart f1 (takePart f0 s)) (by simp [hc2])
    refine ⟨t, ?_, hm.of_takePart.of_takePart⟩
    rw [Option.toList_some, List.singleton_append, readFrames_part _ (h1 f1 rfl) (by simp [hc1]), ht]

/-! ### `readWord` and `peekGap` as operations -/

/-- Where `readWord` is accepted (R133; log 13): no fault or ended run, between words, no blank frame counted on its own. -/
structure MayReadWord (s : State) : Prop where
  ready : Ready s
  between : s.fcnt = 0#2
  noGap : s.gap = 0 ∨ s.streamEnded = true

theorem exec_readWord (hs : MayReadWord s) :
    exec .readWord s = finish ReadResult.toResult (readFrames (s.tape.drop s.ipos) (drive s)) := by
  rw [exec, execReadWord, acceptUnit_of_ready _ hs.ready.1 hs.ready.2,
    require_of (c := (drive s).fcnt = 0#2) _ _ hs.between,
    require_of (c := (drive s).gap = 0 ∨ (drive s).streamEnded = true) _ _ hs.noGap]
  rfl

theorem exec_readWord_gapPending (hr : Ready s) (hc : s.fcnt = 0#2) (hg : s.gap ≠ 0) (he : s.streamEnded = false) :
    exec .readWord s = .refused .gapPending := by
  rw [exec, execReadWord, acceptUnit_of_ready _ hr.1 hr.2, require_of (c := (drive s).fcnt = 0#2) _ _ hc]
  exact require_of_not _ _ (by simp [hg, he])

section
variable {bl : List Frame} (hbl : ∀ f ∈ bl, isBinary f = false)
include hbl

theorem exec_readWord_end (hs : MayReadWord s) (ht : s.tape.drop s.ipos = bl) :
    exec .readWord s = .next { drive s with ipos := s.ipos + bl.length, gap := s.gap + bl.length, streamEnded := true,
                                            result := .endOfStream (s.gap + bl.length) } := by
  rw [exec_readWord hs, ht, ← List.append_nil bl, readFrames_blanks hbl [] (s := drive s) hs.between,
    readFrames_end (s := passBlanks _ (drive s)) hs.between, List.append_nil]
  rfl

theorem exec_readWord_word {f0 f1 f2 : Frame} {w : Word} {rest : List Frame} (hs : MayReadWord s)
    (ht : s.tape.drop s.ipos = bl ++ f0 :: f1 :: f2 :: rest) (hw : decodeFrame f0 f1 f2 = some w) :
    exec .readWord s = .next { drive s with ipos := s.ipos + bl.length + 3, acc := 0#18, gap := 0, widx := s.widx + 1,
                                            wordGap := s.gap + bl.length, streamEnded := false,
                                            result := .word w (s.gap + bl.length) } := by
  rw [exec_readWord hs, ht, readFrames_blanks hbl _ (s := drive s) hs.between,
    readFrames_word rest hw (s := passBlanks _ (drive s)) hs.between]
  rfl

theorem exec_readWord_broken {f0 : Frame} {f1 : Option Frame} {next : List Frame} {sub : Nat} (hs : MayReadWord s)
    (ht : s.tape.drop s.ipos = bl ++ f0 :: (f1.toList ++ next)) (h0 : isBinary f0 = true)
    (h1 : ∀ f ∈ f1, isBinary f = true) (hn : breaksGroup next sub = true) :
    ∃ t, exec .readWord s = .next (faultResult t) ∧ Malformed sub (drive s) t := by
  obtain ⟨t, hread, hm⟩ := readFrames_broken h0 h1 hn (s := passBlanks bl.length (drive s)) hs.between
  refine ⟨t, ?_, hm.of_passBlanks⟩
  rw [exec_readWord hs, ht, readFrames_blanks hbl _ (s := drive s) hs.between, hread]
  rfl

theorem exec_readWord_broken_held {f0 : Frame} {f1 : Option Frame} {next : List Frame} {sub : Nat} (hs : MayReadWord s)
    (hout : s.status.outValid = false) (ht : s.tape.drop s.ipos = bl ++ f0 :: (f1.toList ++ next))
    (h0 : isBinary f0 = true) (h1 : ∀ f ∈ f1, isBinary f = true) (hn : breaksGroup next sub = true) :
    ∃ t, exec .readWord s = .next t ∧
      faultHeld .malformedInput { widx := some s.widx, blk := some s.blk, voice := some s.voice, sub := some sub } t := by
  obtain ⟨t, hx, hm⟩ := exec_readWord_broken hbl hs ht h0 h1 hn
  exact ⟨_, hx, hm.held hs.ready.2 hout⟩

theorem countBlanks_append (fs : List Frame) :
    countBlanks (bl ++ fs) = ((countBlanks fs).1, (countBlanks fs).2 + bl.length) := by
  induction bl with
  | nil => rfl
  | cons f bl ih =>
    obtain ⟨hf, hbl⟩ := List.forall_mem_cons.1 hbl
    simp [countBlanks, hf, ih hbl, Nat.add_assoc]

theorem fuPeek_of_blanks (ht : s.tape.drop s.ipos = bl) : fuPeek s = (false, bl.length) := by
  have h := countBlanks_append hbl []
  rw [List.append_nil] at h
  rw [fuPeek, restOfTape, ht, h]
  simp [countBlanks]

theorem fuPeek_of_binary {rest : List Frame} (ht : s.tape.drop s.ipos = bl ++ f :: rest) (hf : isBinary f = true) :
    fuPeek s = (true, bl.length) := by
  rw [fuPeek, restOfTape, ht, countBlanks_append hbl]
  simp [countBlanks, hf]

end

theorem exec_peekGap (hr : Ready s) (hc : s.fcnt = 0#2) :
    exec .peekGap s = .next (setResult (.peek (fuPeek s).1 (fuPeek s).2) (drive s)) := by
  rw [exec, execPeekGap, acceptUnit_of_ready _ hr.1 hr.2, require_of (c := (drive s).fcnt = 0#2) _ _ hc]
  rfl

/-! ### What can stand on a tape -/

/-- Frames are blank to the end, or there is a first binary frame after some blank ones. -/
theorem blanks_or_binary (fs : List Frame) :
    (∀ f ∈ fs, isBinary f = false) ∨
      ∃ bl f rest, fs = bl ++ f :: rest ∧ (∀ b ∈ bl, isBinary b = false) ∧ isBinary f = true := by
  cases h : fs.find? isBinary with
  | none => exact .inl fun f hf => by simpa using List.find?_eq_none.1 h f hf
  | some f =>
    obtain ⟨hf, bl, rest, hfs, hbl⟩ := List.find?_eq_some_iff_append.1 h
    exact .inr ⟨bl, f, rest, hfs, fun b hb => by simpa using hbl b hb, hf⟩

/-- Inside a word the next frames break the group, or a binary frame goes on with it (R272). -/
theorem breaks_or_binary (next : List Frame) :
    (∃ sub, breaksGroup next sub = true) ∨ ∃ f rest, next = f :: rest ∧ isBinary f = true := by
  cases next with
  | nil => exact .inl ⟨2, rfl⟩
  | cons f rest =>
    cases hf : isBinary f with
    | false => exact .inl ⟨1, by simp [breaksGroup, hf]⟩
    | true => exact .inr ⟨f, rest, rfl, hf⟩

/-- After a binary frame the group is broken off, or two more binary frames make it a word (R93, R272). -/
theorem broken_or_word {f0 : Frame} (h0 : isBinary f0 = true) (fs : List Frame) :
    (∃ (f1 : Option Frame) (next : List Frame) (sub : Nat),
      fs = f1.toList ++ next ∧ (∀ f ∈ f1, isBinary f = true) ∧ breaksGroup next sub = true) ∨
      ∃ f1 f2 rest w, fs = f1 :: f2 :: rest ∧ decodeFrame f0 f1 f2 = some w := by
  rcases breaks_or_binary fs with ⟨sub, hsub⟩ | ⟨f1, next, rfl, h1⟩
  · exact .inl ⟨none, fs, sub, rfl, by simp, hsub⟩
  rcases breaks_or_binary next with ⟨sub, hsub⟩ | ⟨f2, rest, rfl, h2⟩
  · exact .inl ⟨some f1, next, sub, rfl, by simpa using h1, hsub⟩
  · exact .inr ⟨f1, f2, rest, _, rfl, decodeFrame_of_binary h0 h1 h2⟩

/-- What a peek says of the frames to come is what the next read finds (R133, R136). -/
theorem exec_readWord_foretold (hs : MayReadWord s) (hg : s.gap = 0) :
    ∃ u, exec .readWord s = .next u ∧
      ((fuPeek s).1 = false → u.result = .endOfStream (fuPeek s).2 ∧ u.fault = 0#4) ∧
      ((fuPeek s).1 = true →
        (∃ w, u.result = .word w (fuPeek s).2 ∧ u.fault = 0#4) ∨ u.fault = FaultKind.malformedInput.code) := by
  rcases blanks_or_binary (s.tape.drop s.ipos) with hbl | ⟨bl, f0, fs, ht, hbl, h0⟩
  · refine ⟨_, exec_readWord_end hbl hs rfl, ?_⟩
    simp [fuPeek_of_blanks hbl rfl, hg, hs.ready.1]
  · have hpeek : fuPeek s = (true, bl.length) := fuPeek_of_binary hbl ht h0
    rcases broken_or_word h0 fs with ⟨f1, next, sub, rfl, h1, hn⟩ | ⟨f1, f2, rest, w, rfl, hw⟩
    · obtain ⟨t, hx, u, _, rfl⟩ := exec_readWord_broken hbl hs ht h0 h1 hn
      exact ⟨_, hx, by simp [hpeek], fun _ => .inr rfl⟩
    · refine ⟨_, exec_readWord_word hbl hs ht hw, ?_⟩
      simp [hpeek, hg, hs.ready.1]

/-! ### What TE writes -/

theorem exec_writeGap (g : Nat) (hr : Ready s) (hm : s.mode = .tweak) :
    exec (.writeGap g) s = .next (setResult .none (putGap g (drive s))) := by
  rw [exec, execWriteGap, acceptUnit_of_ready _ hr.1 hr.2]
  exact require_of _ _ hm

theorem exec_writeWord (w : Word) (hr : Ready s) (hm : s.mode = .tweak) :
    exec (.writeWord w) s = .next (setResult .none (putWord w (drive s))) := by
  rw [exec, execWriteWord, acceptUnit_of_ready _ hr.1 hr.2]
  exact require_of _ _ hm

end Sys2Proof.Machine

/-! SUPPORT. The statements about FU and the frame codec. -/

namespace Sys2Proof.Proofs

open Sys2Proof.Machine

/-- Settles O9: `readWord` passes the blank frames, and what stands after them decides. -/
theorem readWordClosedForm : Obligations.ReadWordClosedForm := by
  intro s bl rest f0 f1 f2 w hr hout hc hbl
  refine ⟨fun hg ht => exec_readWord_end hbl ⟨hr, hc, hg⟩ ht,
    fun hg ht hw => exec_readWord_word hbl ⟨hr, hc, hg⟩ ht hw, fun hg h0 h => ?_, fun hg h0 h => ?_,
    fun hg he => exec_readWord_gapPending hr hc hg he⟩
  · rcases h with ht | ⟨ht, h1⟩
    · exact exec_readWord_broken_held hbl (f1 := none) (next := []) ⟨hr, hc, hg⟩ hout ht h0 (by simp) rfl
    · exact exec_readWord_broken_held hbl (f1 := some f1) (next := []) ⟨hr, hc, hg⟩ hout ht h0 (by simpa using h1) rfl
  · rcases h with ⟨ht, h1⟩ | ⟨ht, h1, h2⟩
    · exact exec_readWord_broken_held hbl (f1 := none) (next := f1 :: rest) ⟨hr, hc, hg⟩ hout ht h0 (by simp)
        (by simp [breaksGroup, h1])
    · exact exec_readWord_broken_held hbl (f1 := some f1) (next := f2 :: rest) ⟨hr, hc, hg⟩ hout ht h0
        (by simpa using h1) (by simp [breaksGroup, h2])

/-- Settles O10: the count over the frames to come, split at the first binary one. -/
theorem peekGapCountsAndChangesNothing : Obligations.PeekGapCountsAndChangesNothing := by
  intro s bl rest f hr hc hbl
  refine ⟨fun ht => ?_, fun ht hf => ?_⟩
  · rw [exec_peekGap hr hc, fuPeek_of_blanks hbl ht]
    rfl
  · rw [exec_peekGap hr hc, fuPeek_of_binary hbl ht hf]
    rfl

/-- Settles O11: the frames to come are blank to the end, or a broken group or a word stands after the blank ones; the
closed forms of the peek and of the read speak of the same frames. -/
theorem peekForetellsTheNextRead : Obligations.PeekForetellsTheNextRead := by
  intro s t has g hr hc hg hpeek hres
  rw [exec_peekGap hr hc] at hpeek
  cases hpeek
  obtain ⟨rfl, rfl⟩ : (fuPeek s).1 = has ∧ (fuPeek s).2 = g := by simpa using hres
  exact exec_readWord_foretold (s := setResult (.peek (fuPeek s).1 (fuPeek s).2) (drive s)) ⟨hr, hc, .inl hg⟩ hg

/-- Settles O13: what TE appends for a gap is blank, and what it appends for a word decodes to it. -/
theorem writtenWordsReadBack : Obligations.WrittenWordsReadBack := by
  refine ⟨decodeFrame_encodeFrame, fun s t u g w hr hm hempty hgap hword => ?_, by decide⟩
  cases (exec_writeGap g hr hm).symm.trans hgap
  cases (exec_writeWord w (s := setResult .none (putGap g (drive s))) hr hm).symm.trans hword
  have hout : (putWord w (drive (setResult .none (putGap g (drive s))))).out = List.replicate g 0#8 ++ wordFrames w := by
    simp [putWord, putGap, hempty]
  refine ⟨_, exec_readWord_word (bl := List.replicate g 0#8) (rest := []) ?_ ⟨⟨rfl, rfl⟩, rfl, .inl rfl⟩ hout
    (decodeFrame_encodeFrame w), ?_⟩
  · intro f hf
    rw [List.eq_of_mem_replicate hf]
    rfl
  · simp [State.reset]

/-- Settles O6: `fuFrame` by the kind of the frame and by `fcnt`. -/
theorem fuStepConsumesOneFrame : Obligations.FuStepConsumesOneFrame := by
  intro s f hr hout
  refine ⟨fun ht hf hc => ?_, fun ht hf hc => ?_, fun ht hf hc => ?_, fun ht hf hc => ?_, exec_fuStep_none hr⟩
  · rw [exec_fuStep_frame hr ht, fuFrame_part (s := passFrame (drive s)) hf hc]
    rfl
  · rw [exec_fuStep_frame hr ht, fuFrame_last (s := passFrame (drive s)) hf hc]
    rfl
  · rw [exec_fuStep_frame hr ht, fuFrame_blank (s := passFrame (drive s)) hf hc]
    rfl
  · rw [exec_fuStep_frame hr ht, fuFrame_inner_blank (s := passFrame (drive s)) hf hc]
    exact ⟨_, rfl, faultHeld_faultResult hr.2 hout⟩

/-- Settles O8: `fuAtEnd` by `fcnt`. -/
theorem fuEndReportsTheEndOfTheStream : Obligations.FuEndReportsTheEndOfTheStream := by
  intro s hr hout
  refine ⟨fun ht hc => ?_, fun ht hc => ?_, fun ht => ?_⟩
  · rw [exec_fuEnd_none hr ht, fuAtEnd_between (s := drive s) hc]
    rfl
  · rw [exec_fuEnd_none hr ht, fuAtEnd_inside (s := drive s) hc]
    exact ⟨_, rfl, faultHeld_faultResult hr.2 hout⟩
  · obtain ⟨f, hf⟩ := Option.isSome_iff_exists.1 ht
    exact exec_fuEnd_frame hr hf

/-- Settles O12: the codec by the flags of the three frames. -/
theorem frameCodecOperations : Obligations.FrameCodecOperations := by
  intro s w f0 f1 f2 ⟨hf, hd⟩
  refine ⟨?_, fun ⟨h0, h1, h2⟩ => ?_, fun h => ?_⟩
  · rw [exec, execEncodeFrame, acceptUnit_of_ready _ hf hd]
    rfl
  · rw [exec, execDecodeFrame, acceptUnit_of_ready _ hf hd, decodeFrame_of_binary h0 h1 h2]
    rfl
  · rw [exec, execDecodeFrame, acceptUnit_of_ready _ hf hd, decodeFrame_of_blank h]
    rfl

/-- Settles O52: the item a frame decodes to is what FU does with the frame. -/
theorem frameStepIsFuStep : Obligations.FrameStepIsFuStep := by
  intro s hl
  refine ⟨fun hpos hr => ?_, fun hend => ?_⟩
  · have ht : s.tape[s.ipos]? = some s.tape[s.ipos] := List.getElem?_eq_getElem hpos
    rw [step_of_fetch_run ((fetch_of_frame hl).trans (fetchFrame_run ht)), exec_decodeFrameItem,
      acceptUnit_of_ready (s := passFrame s) _ hr.1 hr.2, exec_fuStep_frame hr ht]
    rfl
  · have ht : nextFrame s = none := List.getElem?_eq_none hend
    exact step_of_fetch_run ((fetch_of_frame hl).trans (by rw [fetchFrame, ht]))

end Sys2Proof.Proofs

/-! SUPPORT. CS: the end-around carry as arithmetic, the checksum of a list by the sum of its words, one inverted bit, and
what `add` and `verify` answer. -/

namespace Sys2Proof.Machine

/-! ### The end-around carry -/

/-- What the carry, folded back in as often as needed, leaves of a sum: 0 of 0 alone, and of any other number its
representative modulo 2^18 - 1 in 1 .. 2^18 - 1 (R153). -/
def endAround (n : Nat) : Nat := if n = 0 then 0 else (n - 1) % 262143 + 1

theorem endAround_of_ne_zero {n : Nat} (h : n ≠ 0) : endAround n = (n - 1) % 262143 + 1 := if_neg h

/-- What fits 18 bits is left alone, 0777777 too. -/
theorem endAround_of_lt {n : Nat} (h : n < 262144) : endAround n = n := by
  by_cases h0 : n = 0
  · rw [h0, endAround, if_pos rfl]
  · rw [endAround_of_ne_zero h0, Nat.mod_eq_of_lt (by omega)]
    omega

theorem endAround_mod (n : Nat) : endAround n % 262143 = n % 262143 := by
  by_cases h0 : n = 0
  · rw [h0, endAround, if_pos rfl]
  · rw [endAround_of_ne_zero h0, Nat.mod_add_mod, Nat.sub_add_cancel (Nat.pos_of_ne_zero h0)]

/-- The carry may be folded back before the next summand comes or after it. -/
theorem endAround_add (m n : Nat) : endAround (endAround m + n) = endAround (m + n) := by
  by_cases h0 : m = 0
  · rw [h0, endAround_of_lt (by decide : 0 < 262144)]
  · rw [endAround_of_ne_zero h0, endAround_of_ne_zero (by omega), endAround_of_ne_zero (by omega)]
    omega

/-! ### `add` and the checksum of a list -/

/-- `add` is the sum with its carry folded back (R153): the sum is below 2^19, so that one fold is enough. -/
theorem csAdd_toNat_endAround (a b : Word) : (csAdd a b).toNat = endAround (a.toNat + b.toNat) := by
  have ha := a.isLt
  have hb := b.isLt
  rw [csAdd_toNat]
  by_cases h0 : a.toNat + b.toNat = 0
  · rw [h0, endAround, if_pos rfl]
  · rw [endAround_of_ne_zero h0]
    omega

theorem csAdd_comm (a b : Word) : csAdd a b = csAdd b a := by
  apply BitVec.eq_of_toNat_eq
  rw [csAdd_toNat_endAround, csAdd_toNat_endAround, Nat.add_comm]

theorem csAdd_zero (a : Word) : csAdd a 0#18 = a := by
  apply BitVec.eq_of_toNat_eq
  rw [csAdd_toNat_endAround]
  exact endAround_of_lt a.isLt

theorem csAdd_assoc (a b c : Word) : csAdd (csAdd a b) c = csAdd a (csAdd b c) := by
  apply BitVec.eq_of_toNat_eq
  calc (csAdd (csAdd a b) c).toNat
      = endAround (a.toNat + b.toNat + c.toNat) := by
        rw [csAdd_toNat_endAround, csAdd_toNat_endAround, endAround_add]
    _ = endAround (b.toNat + c.toNat + a.toNat) := by congr 1; omega
    _ = (csAdd a (csAdd b c)).toNat := by
        rw [csAdd_comm a, csAdd_toNat_endAround, csAdd_toNat_endAround, endAround_add]

/-- The ordinary sum of the words, the `S` of R153. -/
abbrev wordSum (ws : List Word) : Nat := (ws.map BitVec.toNat).sum

theorem foldl_csAdd_toNat (ws : List Word) (a : Word) :
    (ws.foldl csAdd a).toNat = endAround (a.toNat + wordSum ws) := by
  induction ws generalizing a with
  | nil => exact (endAround_of_lt a.isLt).symm
  | cons w ws ih =>
    rw [List.foldl_cons, ih, csAdd_toNat_endAround, endAround_add, Nat.add_assoc]
    rfl

/-- The checksum depends on the sum of the words alone (R153, R155). -/
theorem blockChecksum_toNat (ws : List Word) : (blockChecksum ws).toNat = endAround (wordSum ws) := by
  rw [blockChecksum, foldl_csAdd_toNat, BitVec.toNat_ofNat, Nat.zero_mod, Nat.zero_add]

theorem blockChecksum_eq_of_wordSum {ws vs : List Word} (h : wordSum ws = wordSum vs) :
    blockChecksum ws = blockChecksum vs := by
  apply BitVec.eq_of_toNat_eq
  rw [blockChecksum_toNat, blockChecksum_toNat, h]

theorem wordSum_eq_zero_iff {ws : List Word} : wordSum ws = 0 ↔ ∀ w ∈ ws, w = 0#18 := by
  simp [wordSum, List.sum_eq_zero_iff, ← BitVec.toNat_inj]

/-- Words that differ modulo 2^18 - 1 give different checksums in the same place. (The words 0 and 0777777 do not differ, and
after a word that is not 0 they give the same.) -/
theorem blockChecksum_ne_of_mod_ne (ws vs : List Word) {w x : Word} (h : w.toNat % 262143 ≠ x.toNat % 262143) :
    blockChecksum (ws ++ w :: vs) ≠ blockChecksum (ws ++ x :: vs) := by
  intro heq
  have hmod : wordSum (ws ++ w :: vs) % 262143 = wordSum (ws ++ x :: vs) % 262143 := by
    rw [← endAround_mod, ← blockChecksum_toNat, heq, blockChecksum_toNat, endAround_mod]
  simp only [wordSum, List.map_append, List.map_cons, List.sum_append, List.sum_cons] at hmod
  omega

/-! ### One inverted bit -/

/-- Inverting a bit that is clear adds its weight. -/
theorem toNat_flip_of_clear {w : Word} {i : Nat} (hi : i < 18) (h : w.getLsbD i = false) :
    (w ^^^ (1#18 <<< i)).toNat = w.toNat + 2 ^ i := by
  rw [← BitVec.twoPow_eq]
  have hand : w &&& BitVec.twoPow 18 i = 0#18 := by rw [BitVec.and_twoPow, h]; rfl
  have hxor : w ^^^ BitVec.twoPow 18 i = w ||| BitVec.twoPow 18 i := by
    ext j hj
    by_cases hji : j = i
    · subst hji
      have hclear : w[j] = false := h
      simp [hclear]
    · have hpow : (BitVec.twoPow 18 i)[j] = false := by simp [hji]
      simp [hpow]
  have hpow : 2 ^ i % 2 ^ 18 = 2 ^ i := Nat.mod_eq_of_lt (Nat.pow_lt_pow_right (by decide) hi)
  rw [hxor, ← BitVec.add_eq_or_of_and_eq_zero _ _ hand, BitVec.toNat_add_of_and_eq_zero hand, BitVec.toNat_twoPow, hpow]

/-- Inverting one bit moves the word by the bit's weight, up or down. -/
theorem toNat_flip (w : Word) {i : Nat} (hi : i < 18) :
    (w ^^^ (1#18 <<< i)).toNat = w.toNat + 2 ^ i ∨ w.toNat = (w ^^^ (1#18 <<< i)).toNat + 2 ^ i := by
  cases hbit : w.getLsbD i with
  | false => exact .inl (toNat_flip_of_clear hi hbit)
  | true =>
    have hclear : (w ^^^ (1#18 <<< i)).getLsbD i = false := by simp [hbit, hi]
    have hback := toNat_flip_of_clear hi hclear
    rw [BitVec.xor_assoc, BitVec.xor_self, BitVec.xor_zero] at hback
    exact .inr hback

/-- No weight of a bit is a multiple of 2^18 - 1, so that an inverted bit is seen modulo 2^18 - 1. -/
theorem flip_mod_ne (w : Word) {i : Nat} (hi : i < 18) :
    w.toNat % 262143 ≠ (w ^^^ (1#18 <<< i)).toNat % 262143 := by
  have hpos : 0 < 2 ^ i := Nat.two_pow_pos i
  have hle : 2 ^ i ≤ 2 ^ 17 := Nat.pow_le_pow_right (by decide) (by omega)
  have hflip := toNat_flip w hi
  omega

/-! ### The operations -/

variable {s : State}

theorem exec_add (a b : Word) (hr : Ready s) :
    exec (.add a b) s = .next (setResult (.plainWord (csAdd a b)) (drive s)) := by
  rw [exec, execAdd, acceptUnit_of_ready _ hr.1 hr.2]

theorem exec_verify_self (e : Word) (hr : Ready s) : exec (.verify e e) s = .next (setResult .none (drive s)) := by
  rw [exec, execVerify, acceptUnit_of_ready _ hr.1 hr.2, csVerify_eq, if_pos rfl, if_pos rfl]
  rfl

/-- Different values raise ChecksumError with both; the word index is the model's free value (R154, R273, R280; log 15). -/
theorem exec_verify_of_ne {e c : Word} (hr : Ready s) (hout : s.status.outValid = false) (h : e ≠ c) :
    ∃ t j, exec (.verify e c) s = .next t ∧
      faultHeld .checksumError
        { widx := some j, blk := some s.blk, voice := some s.voice, expected := some e, computed := some c } t := by
  rw [exec, execVerify, acceptUnit_of_ready _ hr.1 hr.2, csVerify_eq, if_neg h, if_neg h]
  exact ⟨_, _, rfl, faultHeld_faultResult hr.2 hout⟩

end Sys2Proof.Machine

/-! SUPPORT. The statements about the checksum. -/

namespace Sys2Proof.Proofs

open Sys2Proof.Machine

/-- Settles O15: a sum with its carry folded back, and a fold that depends on the sum of the words alone. -/
theorem addClosedFormModuloTwoTo18MinusOne : Obligations.AddClosedFormModuloTwoTo18MinusOne := by
  refine ⟨fun a b => ?_, csAdd_assoc, fun ws hzero => ?_, fun ws hnonzero => ?_, fun ws vs hperm => ?_⟩
  · simp only [csAdd_toNat_endAround, endAround, Nat.add_eq_zero_iff]
  · exact blockChecksum_eq_of_wordSum (vs := []) (wordSum_eq_zero_iff.2 hzero)
  · rw [blockChecksum_toNat]
    apply endAround_of_ne_zero
    rw [Ne, wordSum_eq_zero_iff]
    simpa using hnonzero
  · exact blockChecksum_eq_of_wordSum (hperm.map _).sum_nat

/-- Settles O16: the inverted bit moves the sum by a power of two below 2^18 - 1, so that the checksums differ. -/
theorem singleBitFlipIsDetected : Obligations.SingleBitFlipIsDetected := by
  intro s ws vs w i hr hout hi
  obtain ⟨t, _, hx, hfault, _⟩ := exec_verify_of_ne hr hout (blockChecksum_ne_of_mod_ne ws vs (flip_mod_ne w hi))
  exact ⟨t, hx, hfault⟩

/-- Settles O14: the laws of `add`; that the result fits is in its type. -/
theorem addCommutesWithIdentityZero : Obligations.AddCommutesWithIdentityZero :=
  fun a b => ⟨csAdd_comm a b, csAdd_zero a, Nat.le_of_lt_succ (csAdd a b).isLt⟩

/-- Settles O17: `add` in exact arithmetic, in an accepted operation. -/
theorem addOperation : Obligations.AddOperation := by
  intro s a b hr
  rw [exec_add a b hr, ← csAdd_toNat, BitVec.ofNat_toNat, BitVec.setWidth_eq]
  rfl

/-- Settles O18: the two answers of `verify`. -/
theorem verifyAcceptsExactlyEqualValues : Obligations.VerifyAcceptsExactlyEqualValues := by
  intro s e c hr hout
  refine ⟨?_, fun hne => ?_⟩
  · rintro rfl
    exact exec_verify_self e hr
  · obtain ⟨t, j, hx, hfault, hinfo, hseq, hstatus⟩ := exec_verify_of_ne hr hout hne
    refine ⟨t, hx, hfault, hseq, hstatus, ?_⟩
    simp [hinfo]

end Sys2Proof.Proofs

/-! SUPPORT. NC: content words by their numbers, the fields of a note word and the word of its fields, articulation codes,
tempo words, and what the codec operations answer. -/

namespace Sys2Proof

/-! ### Content words by their numbers -/

/-- The tag is the three highest bits of a word, all set: the words that carry it are those from 0700000 on (R96, R98). -/
theorem and_tempoTag_eq_iff {w : Word} : w &&& Config.tempoTag = Config.tempoTag ↔ 0o700000 ≤ w.toNat := by
  constructor
  · intro h
    calc 0o700000 = (w &&& Config.tempoTag).toNat := by rw [h]; rfl
      _ ≤ w.toNat := by rw [BitVec.toNat_and]; exact Nat.and_le_left
  · intro h
    have hlt := w.isLt
    have htop : w.extractLsb' 15 3 = 7#3 := by
      apply BitVec.eq_of_toNat_eq
      rw [BitVec.extractLsb'_toNat, Nat.shiftRight_eq_div_pow, BitVec.toNat_ofNat]
      omega
    have hw : w = 7#3 ++ w.extractLsb' 0 15 := by
      rw [← htop]
      exact (BitVec.extractLsb'_append_extractLsb' (w := 3) (len := 15)).symm
    have htag : Config.tempoTag = 7#3 ++ 0#15 := rfl
    rw [htag, hw, BitVec.and_append, BitVec.and_self, BitVec.and_zero]

theorem eq_sep_iff {w : Word} : w = Config.sep ↔ w.toNat = 0o600000 := BitVec.toNat_inj.symm

theorem classify_eq_tempo_iff_le {w : Word} : classify w = .tempo ↔ 0o700000 ≤ w.toNat := by
  rw [classify_eq_tempo_iff, and_tempoTag_eq_iff, Ne, eq_sep_iff]
  omega

theorem classify_eq_note_iff {w : Word} : classify w = .note ↔ w.toNat ≠ 0o600000 ∧ w.toNat < 0o700000 := by
  rw [← Nat.not_le, ← classify_eq_tempo_iff_le, Ne, ← eq_sep_iff, ← classify_eq_sep_iff]
  cases classify w <;> decide

end Sys2Proof

namespace Sys2Proof.Machine

/-! ### The fields of a note word -/

/-- The two groups of the articulation code stand side by side (R99, R163). -/
theorem noteFields_art (w : Word) : (noteFields w).art = w.extractLsb' 12 4 :=
  BitVec.extractLsb'_append_extractLsb'_eq_extractLsb' rfl

/-- The shared bits counted once, a note word's fields spell it (R99). -/
theorem append_noteFields (w : Word) :
    (noteFields w).hi ++ (noteFields w).art ++ (noteFields w).pitch.extractLsb' 0 5 ++ (noteFields w).duration = w := by
  have hpitch : (noteFields w).pitch.extractLsb' 0 5 = w.extractLsb' 7 5 := by
    ext i hi
    have hi6 : i < 6 := by omega
    simp [noteFields, noteLayout, hi6]
  have hhi : (noteFields w).hi = w.extractLsb' 16 2 := rfl
  have hduration : (noteFields w).duration = w.extractLsb' 0 7 := rfl
  rw [hpitch, noteFields_art, hhi, hduration, BitVec.extractLsb'_append_extractLsb'_eq_extractLsb' (by rfl),
    BitVec.extractLsb'_append_extractLsb'_eq_extractLsb' (by rfl)]
  exact BitVec.extractLsb'_append_extractLsb'

/-- Bit 12 is bit 0 of the articulation code and bit 5 of the pitch (R99, R170). -/
theorem noteFields_art_low (w : Word) : (noteFields w).art.getLsbD 0 = (noteFields w).pitch.getLsbD 5 := by
  obtain ⟨_, _, hart, _⟩ := noteFields_bits w 0
  obtain ⟨_, hpitch, _⟩ := noteFields_bits w 5
  exact hart.trans hpitch.symm

/-- Bit 15 is bit 3 of the articulation code and the triplet flag (R99, R170). -/
theorem noteFields_art_high (w : Word) : (noteFields w).art.getLsbD 3 = (noteFields w).triplet.getLsbD 0 := by
  obtain ⟨_, _, hart, _⟩ := noteFields_bits w 3
  obtain ⟨_, _, _, htriplet, _⟩ := noteFields_bits w 0
  exact hart.trans htriplet.symm

/-! ### `encodeNote` -/

theorem noteFields_insertFields {n : Note} (h : sharedBitsAgree n = true) : noteFields (insertFields n) = n :=
  of_decide_eq_true h

/-- Where the shared bits agree the word of the fields is the fields in a row, the pitch without its shared bit (R169). -/
theorem insertFields_eq_append {n : Note} (h : sharedBitsAgree n = true) :
    insertFields n = n.hi ++ n.art ++ n.pitch.extractLsb' 0 5 ++ n.duration := by
  rw [← append_noteFields (insertFields n), noteFields_insertFields h]

theorem sharedBitsAgree_noteFields (w : Word) : sharedBitsAgree (noteFields w) = true :=
  (sharedBitsAgree_iff _).2 ⟨noteFields_art_low w, noteFields_art_high w⟩

/-- Inserting the fields of a word gives the word back. -/
theorem insertFields_noteFields (w : Word) : insertFields (noteFields w) = w := by
  rw [insertFields_eq_append (sharedBitsAgree_noteFields w), append_noteFields]

/-- `encodeNote` yields a word exactly where the word is a note word and has the given fields (R169). -/
theorem encodeNote_eq_some_iff {n : Note} {w : Word} :
    encodeNote n = some w ↔ noteFields w = n ∧ classify w = .note := by
  constructor
  · intro h
    unfold encodeNote at h
    split at h <;> [split at h; skip] <;> cases h
    next hshared hclass => exact ⟨noteFields_insertFields hshared, hclass⟩
  · rintro ⟨rfl, hclass⟩
    rw [encodeNote, if_pos (sharedBitsAgree_noteFields w), insertFields_noteFields, if_pos hclass]

theorem encodeNote_of_agree {n : Note} (h : sharedBitsAgree n = true)
    (hclass : classify (n.hi ++ n.art ++ n.pitch.extractLsb' 0 5 ++ n.duration) = .note) :
    encodeNote n = some (n.hi ++ n.art ++ n.pitch.extractLsb' 0 5 ++ n.duration) := by
  rw [← insertFields_eq_append h] at hclass ⊢
  exact encodeNote_eq_some_iff.2 ⟨noteFields_insertFields h, hclass⟩

/-- Where the fields disagree, or spell no note word, they are the fields of no note word (R169). -/
theorem encodeNote_eq_none {n : Note} (h : n.art.getLsbD 0 ≠ n.pitch.getLsbD 5 ∨ n.art.getLsbD 3 ≠ n.triplet.getLsbD 0 ∨
    classify (n.hi ++ n.art ++ n.pitch.extractLsb' 0 5 ++ n.duration) ≠ .note) : encodeNote n = none := by
  rw [Option.eq_none_iff_forall_ne_some]
  intro w hw
  obtain ⟨rfl, hclass⟩ := encodeNote_eq_some_iff.1 hw
  rw [append_noteFields] at h
  rcases h with hlow | hhigh | hnote
  · exact hlow (noteFields_art_low w)
  · exact hhigh (noteFields_art_high w)
  · exact hnote hclass

/-! ### Articulation codes -/

theorem getLsbD_zero_eq_true_iff (b : BitVec 1) : b.getLsbD 0 = true ↔ b = 1#1 := by
  revert b
  decide

/-- The code that has the name (R166). -/
def articulationCode : Articulation → BitVec 4
  | .normal => 0#4
  | .quarter => 1#4
  | .half => 2#4
  | .staccato => 4#4
  | .legato => 8#4

@[simp] theorem articulation_articulationCode (a : Articulation) : articulation (articulationCode a) = some a := by
  cases a <;> rfl

theorem eq_articulationCode {c : BitVec 4} {a : Articulation} (h : articulation c = some a) : c = articulationCode a := by
  unfold articulation at h
  split_ifs at h <;> cases h <;> assumption

theorem articulation_eq_none_iff {c : BitVec 4} : articulation c = none ↔ ∀ a, c ≠ articulationCode a := by
  constructor
  · rintro h a rfl
    rw [articulation_articulationCode] at h
    cases h
  · intro h
    rw [Option.eq_none_iff_forall_ne_some]
    exact fun a ha => h a (eq_articulationCode ha)

theorem articulationCode_bit_zero (a : Articulation) : (articulationCode a).getLsbD 0 = true ↔ a = .quarter := by
  cases a <;> decide

theorem articulationCode_bit_three (a : Articulation) : (articulationCode a).getLsbD 3 = true ↔ a = .legato := by
  cases a <;> decide

/-! ### Tempo words -/

theorem toNat_and_tempoMask (w : Word) : (w &&& Config.tempoMask).toNat = w.toNat % 32768 := by
  rw [BitVec.toNat_and]
  exact Nat.and_two_pow_sub_one_eq_mod w.toNat 15

theorem decodeTempo_eq (w : Word) :
    decodeTempo w = if w.toNat % 32768 = 0 then none else some (11436 / (w.toNat % 32768)) := by
  rw [decodeTempo, toNat_and_tempoMask]
  rfl

/-- `encodeTempo` puts its operand, cut to 15 bits, below the tag (R168). -/
theorem encodeTempo_toNat (n : Nat) : (encodeTempo n).toNat = 0o700000 + n % 32768 := by
  have hdisjoint : Config.tempoTag &&& (BitVec.ofNat 18 n &&& Config.tempoMask) = 0#18 := by
    have hmask : Config.tempoMask &&& Config.tempoTag = 0#18 := rfl
    rw [BitVec.and_comm, BitVec.and_assoc, hmask, BitVec.and_zero]
  have htag : Config.tempoTag.toNat = 0o700000 := rfl
  rw [encodeTempo, ← BitVec.add_eq_or_of_and_eq_zero _ _ hdisjoint, BitVec.toNat_add_of_and_eq_zero hdisjoint,
    toNat_and_tempoMask, BitVec.toNat_ofNat, htag]
  omega

/-- A word that carries the tag is its parameter under the tag (R96, R97, R171). -/
theorem encodeTempo_and_tempoMask {w : Word} (h : classify w = .tempo) :
    encodeTempo (w &&& Config.tempoMask).toNat = w := by
  have hle := classify_eq_tempo_iff_le.1 h
  have hlt := w.isLt
  apply BitVec.eq_of_toNat_eq
  rw [encodeTempo_toNat, toNat_and_tempoMask]
  omega

/-! ### Durations and pitches -/

theorem noteDuration_zero (t : BitVec 1) : noteDuration 0#7 t = none := by
  simp [noteDuration]

theorem noteDuration_of_ne_zero {d : BitVec 7} (h : d ≠ 0#7) (t : BitVec 1) :
    noteDuration d t = some (192 / (d.toNat * if t = 1#1 then 2 else 3)) := by
  have hd : d.toNat ≠ 0 := fun h0 => h (BitVec.eq_of_toNat_eq h0)
  have hdiv : d.toNat * (if t = 1#1 then 2 else 3) ≠ 0 := by
    split <;> omega
  exact if_neg hdiv

theorem pitchInfo_of_lt {p : BitVec 6} (h : p.toNat < 2) : pitchInfo p = .rest p := if_pos h

theorem pitchInfo_of_le {p : BitVec 6} (h : 2 ≤ p.toNat) :
    pitchInfo p = .pitched (p.toNat - 2) ((p.toNat - 2) / 12 + 1) ((p.toNat - 2) % 12) := if_neg (Nat.not_lt.2 h)

/-! ### The operations -/

variable {s : State}

/-- The body of an operation that only yields a value, accepted. -/
theorem acceptUnit_setResult (r : Result) (hr : Ready s) :
    (acceptUnit s fun s => .next (setResult r s)) = .next (setResult r (drive s)) :=
  acceptUnit_of_ready _ hr.1 hr.2

theorem exec_classify (w : Word) (hr : Ready s) :
    exec (.classify w) s = .next (setResult (.wordClass (classify w)) (drive s)) := acceptUnit_setResult _ hr

theorem exec_decode (w : Word) (hr : Ready s) :
    exec (.decode w) s = .next (setResult
      (.note (noteFields w) (noteDuration (noteFields w).duration (noteFields w).triplet)
        (pitchInfo (noteFields w).pitch)) (drive s)) := acceptUnit_setResult _ hr

theorem exec_pitchInfo (p : BitVec 6) (hr : Ready s) :
    exec (.pitchInfo p) s = .next (setResult (.pitchInfo (pitchInfo p)) (drive s)) := acceptUnit_setResult _ hr

theorem exec_decodeTempo (w : Word) (hr : Ready s) :
    exec (.decodeTempo w) s = .next (setResult (.bpm (decodeTempo w)) (drive s)) := acceptUnit_setResult _ hr

theorem exec_encodeTempo (n : Nat) (hr : Ready s) :
    exec (.encodeTempo n) s = .next (setResult (.plainWord (encodeTempo n)) (drive s)) := acceptUnit_setResult _ hr

theorem exec_encodeNote (n : Note) (hr : Ready s) :
    exec (.encodeNote n.pitch n.duration n.art n.triplet n.hi) s =
      .next (setResult (.maybeWord (encodeNote n)) (drive s)) := acceptUnit_setResult _ hr

theorem exec_articulationName_code (a : Articulation) (hr : Ready s) :
    exec (.articulationName (articulationCode a)) s = .next (setResult (.articulation a) (drive s)) := by
  rw [exec, execArticulationName, acceptUnit_of_ready _ hr.1 hr.2, nameArticulation_eq, articulation_articulationCode]
  rfl

/-- A code without a name raises InvalidArticulation; the word and its index are the model's free values (R166, R276, R280;
log 15). -/
theorem exec_articulationName_of_none {c : BitVec 4} (hr : Ready s) (hout : s.status.outValid = false)
    (h : articulation c = none) :
    ∃ t j w, exec (.articulationName c) s = .next t ∧
      faultHeld .invalidArticulation
        { widx := some j, blk := some s.blk, voice := some s.voice, code := some c, word := some w } t := by
  rw [exec, execArticulationName, acceptUnit_of_ready _ hr.1 hr.2, nameArticulation_eq, h]
  exact ⟨_, _, _, rfl, faultHeld_faultResult hr.2 hout⟩

end Sys2Proof.Machine

/-! SUPPORT. The statements about the note and tempo codec. -/

namespace Sys2Proof.Proofs

open Sys2Proof.Machine

/-- Settles O25: `encodeNote` yields exactly the note words with the given fields, and a tempo word is its tag and its
parameter. -/
theorem codecRoundTrips : Obligations.CodecRoundTrips := by
  refine ⟨fun w hnote => ?_, fun n w hn => ?_, fun w htempo => ?_, fun t => ?_⟩
  · exact encodeNote_eq_some_iff.2 ⟨rfl, hnote⟩
  · obtain ⟨hfields, _⟩ := encodeNote_eq_some_iff.1 hn
    exact hfields
  · exact encodeTempo_and_tempoMask htempo
  · rw [encodeTempo_toNat]
    omega

/-- Settles O26: bit 15 is set in the code of legato alone, bit 12 in the code of quarter alone. -/
theorem overlappingFieldsForceArticulation : Obligations.OverlappingFieldsForceArticulation := by
  intro w a ha
  have hcode : (noteFields w).art = articulationCode a := eq_articulationCode ha
  constructor
  · rw [← articulationCode_bit_three, ← hcode, noteFields_art_high, getLsbD_zero_eq_true_iff]
  · intro hpitch
    have hbit : (noteFields w).pitch.getLsbD 5 = true := by
      rw [← BitVec.msb_eq_getLsbD_last, BitVec.msb_eq_decide]
      exact decide_eq_true hpitch
    rw [← articulationCode_bit_zero, ← hcode, noteFields_art_low, hbit]

/-- Settles O19: the three classes by the number of the word. -/
theorem classifyOperation : Obligations.ClassifyOperation := by
  intro s w hr
  rw [exec_classify w hr]
  refine ⟨fun hsep => ?_, fun htempo => ?_, fun hsep htempo => ?_⟩
  · rw [classify_eq_sep_iff.2 (eq_sep_iff.2 hsep)]
    rfl
  · rw [classify_eq_tempo_iff_le.2 htempo]
    rfl
  · rw [classify_eq_note_iff.2 ⟨hsep, htempo⟩]
    rfl

/-- Settles O20: the fields of the word, their displayed duration and their pitch. -/
theorem decodeOperation : Obligations.DecodeOperation := by
  intro s w hr
  refine ⟨_, _, _, exec_decode w hr, ?_, fun hzero => ?_, fun hne htriplet => ?_, fun hne htriplet => ?_,
    pitchInfo_of_lt, pitchInfo_of_le⟩
  · rw [← noteFields_art]
    rfl
  · rw [hzero, noteDuration_zero]
  · rw [noteDuration_of_ne_zero hne, htriplet]
    rfl
  · rw [noteDuration_of_ne_zero hne, htriplet]
    rfl

/-- Settles O21: `pitchInfo` below and from pitch 2 on. -/
theorem pitchInfoOperation : Obligations.PitchInfoOperation := by
  intro s p hr
  rw [exec_pitchInfo p hr]
  refine ⟨fun hrest => ?_, fun hpitched => ?_⟩
  · rw [pitchInfo_of_lt hrest]
    rfl
  · rw [pitchInfo_of_le hpitched]
    rfl

/-- Settles O22: the five codes that have a name, and every other code. -/
theorem articulationNameOperation : Obligations.ArticulationNameOperation := by
  intro s c hr hout
  refine ⟨?_, ?_, ?_, ?_, ?_, fun h0 h1 h2 h4 h8 => ?_⟩
  · rintro rfl; exact exec_articulationName_code .normal hr
  · rintro rfl; exact exec_articulationName_code .quarter hr
  · rintro rfl; exact exec_articulationName_code .half hr
  · rintro rfl; exact exec_articulationName_code .staccato hr
  · rintro rfl; exact exec_articulationName_code .legato hr
  · have hnone : articulation c = none := articulation_eq_none_iff.2 fun a => by cases a <;> assumption
    obtain ⟨t, j, w, hx, hfault, hinfo, hseq, hstatus⟩ := exec_articulationName_of_none hr hout hnone
    refine ⟨t, hx, hfault, hseq, hstatus, ?_⟩
    simp [hinfo]

/-- Settles O23: the quotient by the parameter, and the tag over it. -/
theorem tempoOperations : Obligations.TempoOperations := by
  intro s w n hr
  rw [exec_decodeTempo w hr, exec_encodeTempo n hr, decodeTempo_eq, ← encodeTempo_toNat, BitVec.ofNat_toNat,
    BitVec.setWidth_eq]
  refine ⟨fun hzero => ?_, fun hne => ?_, rfl⟩
  · rw [if_pos hzero]
    rfl
  · rw [if_neg hne]
    rfl

/-- Settles O24: the fields in a row where they agree and spell a note word, none otherwise. -/
theorem encodeNoteOperation : Obligations.EncodeNoteOperation := by
  intro s p d a t h hr
  rw [exec_encodeNote ⟨p, d, a, t, h⟩ hr]
  refine ⟨fun hlow hhigh hnote => ?_, fun hnone => ?_⟩
  · have hagree : sharedBitsAgree ⟨p, d, a, t, h⟩ = true := (sharedBitsAgree_iff _).2 ⟨hlow, hhigh⟩
    rw [encodeNote_of_agree hagree hnote]
    rfl
  · rw [encodeNote_eq_none (n := ⟨p, d, a, t, h⟩) hnone]
    rfl

end Sys2Proof.Proofs

/-! SUPPORT. `readBlockWord` over the words of a tape with their gaps and ignored bits: a word, the end of the stream, a
broken group (R191), and how a block operation that raises a fault ends (R281). -/

namespace Sys2Proof.Machine

variable {s t : State} {fs : List Frame}

/-! ### A part that raises a fault -/

/-- The part raises a fault of this kind with this record, in a state with this `STATUS`, of which fault entry clears
`RUNNING` only (R281). -/
def Raises {α : Type} (k : FaultKind) (info : FInfo) (status : Status) (x : Act α) : Prop :=
  ∃ u, x = .raised (raise k info u) ∧ u.status = status

section
variable {α β : Type} {k : FaultKind} {info : FInfo} {status : Status} {x : Act α}

theorem Raises.bind (h : Raises k info status x) (f : α → State → Act β) : Raises k info status (x.bind f) := by
  obtain ⟨u, rfl, hu⟩ := h
  exact ⟨u, rfl, hu⟩

/-- An operation whose body raises a fault delivers it (R281). -/
theorem Raises.finish (h : Raises k info status x) (f : α → Result) (hdone : status.done = false)
    (hout : status.outValid = false) : ∃ t, finish f x = .next t ∧ faultHeld k info t := by
  obtain ⟨u, rfl, rfl⟩ := h
  exact ⟨_, rfl, faultHeld_faultResult hdone hout⟩

end

/-! ### Where FU stands -/

/-- FU stands between two words, with these frames to come. -/
structure Ahead (fs : List Frame) (s : State) : Prop where
  between : s.fcnt = 0#2
  frames : restOfTape s = fs

/-- FU has just completed a word (R132). -/
structure Fresh (fs : List Frame) (s : State) : Prop extends Ahead fs s where
  noGap : s.gap = 0
  noBits : s.acc = 0#18
  notEnded : s.streamEnded = false

/-- The registers that say where FU stands (R30 to R33), with the tape. -/
def reading (s : State) : List Frame × Nat × BitVec 2 × Word × Nat × Bool :=
  (s.tape, s.ipos, s.fcnt, s.acc, s.gap, s.streamEnded)

/-- What leaves FU alone leaves it where it stands. -/
theorem Fresh.congr (h : Fresh fs s) (hr : reading t = reading s) : Fresh fs t := by
  obtain ⟨⟨hc, hf⟩, hgap, hbits, hended⟩ := h
  simp only [reading, Prod.mk.injEq] at hr
  obtain ⟨ht, hi, hc', hb', hg', he'⟩ := hr
  have hf' : restOfTape t = fs := by rw [restOfTape, ht, hi, ← hf, restOfTape]
  exact ⟨⟨hc'.trans hc, hf'⟩, hg'.trans hgap, hb'.trans hbits, he'.trans hended⟩

/-! ### One read -/

theorem not_isBinary_of_mem_blankFrames {bs : List (BitVec 7)} {f : Frame} (h : f ∈ blankFrames bs) :
    isBinary f = false := by
  obtain ⟨b, _, rfl⟩ := List.mem_map.1 h
  exact isBinary_blankFrame b

@[simp] theorem length_blankFrames (bs : List (BitVec 7)) : (blankFrames bs).length = bs.length := List.length_map _

/-- A word's frames decode to it, whatever their ignored bits (R91, R131). -/
theorem InkedWord.decodeFrame_eq (x : InkedWord) :
    decodeFrame (1#1 ++ x.x0 ++ x.w.extractLsb' 12 6) (1#1 ++ x.x1 ++ x.w.extractLsb' 6 6)
      (1#1 ++ x.x2 ++ x.w.extractLsb' 0 6) = some x.w := by
  rw [decodeFrame_of_binary (isBinary_binaryFrame _ _) (isBinary_binaryFrame _ _) (isBinary_binaryFrame _ _),
    data6_append, data6_append, data6_append, groups_append]

/-- FU after it has read a word (R132, R133). -/
def takeWord (x : InkedWord) (s : State) : State :=
  { s with
    ipos := s.ipos + x.frames.length, acc := 0#18, gap := 0, widx := s.widx + 1, wordGap := s.gap + x.blanks.length,
    streamEnded := false }

theorem restOfTape_advance {n : Nat} (h : restOfTape s = fs) : s.tape.drop (s.ipos + n) = fs.drop n := by
  rw [← List.drop_drop]
  exact congrArg (List.drop n) h

/-- After a word to come FU stands before the frames that follow it. -/
theorem fresh_takeWord {x : InkedWord} (h : Ahead (x.frames ++ fs) s) : Fresh fs (takeWord x s) where
  between := h.between
  frames := (restOfTape_advance h.frames).trans List.drop_left
  noGap := rfl
  noBits := rfl
  notEnded := rfl

/-- A word to come is delivered with the blank frames before it, those already counted included (R191). -/
theorem readBlockWord_word {x : InkedWord} (h : Ahead (x.frames ++ fs) s) :
    readBlockWord s = .done { w := x.w, g := s.gap + x.blanks.length, j := s.widx } (takeWord x s) := by
  have hpos : s.ipos + x.blanks.length + 3 = s.ipos + x.frames.length := by simp [InkedWord.frames, Nat.add_assoc]
  rw [readBlockWord, fuRead, h.frames, InkedWord.frames, List.append_assoc,
    readFrames_blanks (fun _ => not_isBinary_of_mem_blankFrames) _ h.between, length_blankFrames]
  simp only [List.cons_append, List.nil_append]
  rw [readFrames_word fs x.decodeFrame_eq (s := passBlanks _ s) h.between, bind_done]
  simp only [passBlanks, hpos, takeWord]

/-- With only blank frames to come, the word required raises UnexpectedEOF (R191, R277). -/
theorem readBlockWord_end {bs : List (BitVec 7)} (h : Ahead (blankFrames bs) s) (hg : s.gap = 0) :
    Raises .unexpectedEOF
      { widx := some s.widx, blk := some s.blk, voice := some s.voice, gap := some bs.length } s.status
      (readBlockWord s) := by
  have hgap : s.gap + bs.length = bs.length := by rw [hg, Nat.zero_add]
  refine ⟨{ passBlanks bs.length s with streamEnded := true }, ?_, rfl⟩
  have hread := readFrames_blanks (fun _ => not_isBinary_of_mem_blankFrames (bs := bs)) [] h.between
  rw [List.append_nil, length_blankFrames, readFrames_end (s := passBlanks _ s) h.between] at hread
  rw [readBlockWord, fuRead, h.frames, hread, bind_done,
    passBlanks, hgap]
  rfl

/-- A group broken off raises MalformedInput (R191, R272). -/
theorem readBlockWord_broken {bl : List (BitVec 7)} {d0 : BitVec 7} {d1 : Option (BitVec 7)} {next : List Frame}
    {sub : Nat} (h : Ahead (brokenGroup bl d0 d1 next) s) (hn : breaksGroup next sub = true) :
    Raises .malformedInput { widx := some s.widx, blk := some s.blk, voice := some s.voice, sub := some sub } s.status
      (readBlockWord s) := by
  have hbin : ∀ d : BitVec 7, isBinary (1#1 ++ d) = true := isBinary_append 1#1
  have hsecond : ∀ f ∈ d1.map (1#1 ++ ·), isBinary f = true := by
    intro f hf
    obtain ⟨d, _, rfl⟩ := Option.mem_map.1 hf
    exact hbin d
  have hframes : brokenGroup bl d0 d1 next =
      blankFrames bl ++ (1#1 ++ d0) :: ((d1.map (1#1 ++ ·)).toList ++ next) := by
    cases d1 <;> simp [brokenGroup]
  obtain ⟨t, hread, hm⟩ := readFrames_broken (hbin d0) hsecond hn (s := passBlanks bl.length s) h.between
  obtain ⟨u, hu, rfl⟩ := hm.of_passBlanks
  refine ⟨u, ?_, by rw [hu]⟩
  rw [readBlockWord, fuRead, h.frames, hframes,
    readFrames_blanks (fun _ => not_isBinary_of_mem_blankFrames) _ h.between, length_blankFrames, hread, bind_raised]
  rfl

/-! ### Several words read -/

/-- FU after it has read several words, a word before them included (R132, R133). -/
def takeWords (xs : List InkedWord) (s : State) : State :=
  { s with
    ipos := s.ipos + (xs.flatMap InkedWord.frames).length, acc := 0#18, gap := 0, widx := s.widx + xs.length,
    wordGap := xs.foldl (fun _ x => x.blanks.length) s.wordGap, streamEnded := false }

/-- Words to come, and then one more. -/
theorem ahead_of_concat {xs : List InkedWord} {x : InkedWord} (hc : s.fcnt = 0#2)
    (ht : s.tape.drop s.ipos = (xs ++ [x]).flatMap InkedWord.frames ++ fs) :
    Ahead (xs.flatMap InkedWord.frames ++ (x.frames ++ fs)) s :=
  ⟨hc, ht.trans (by simp)⟩

theorem Fresh.takeWords_nil (h : Fresh fs s) : takeWords [] s = s := by
  obtain ⟨_, hgap, hbits, hended⟩ := h
  cases s
  cases hgap
  cases hbits
  cases hended
  rfl

/-- The first word read, then the others. -/
theorem Fresh.takeWords_cons {x : InkedWord} {xs : List InkedWord} (h : Fresh fs s) :
    takeWords (x :: xs) s = takeWords xs (takeWord x s) := by
  simp [takeWords, takeWord, h.noGap, Nat.add_assoc, Nat.add_comm 1]

theorem fresh_takeWords {xs : List InkedWord} (h : Ahead (xs.flatMap InkedWord.frames ++ fs) s) :
    Fresh fs (takeWords xs s) where
  between := h.between
  frames := (restOfTape_advance h.frames).trans List.drop_left
  noGap := rfl
  noBits := rfl
  notEnded := rfl

end Sys2Proof.Machine

/-! SUPPORT. What the two kinds of block share: what is reported and copied to the output, and the words after the count
word (R192, R194). -/

namespace Sys2Proof.Machine

variable {s t : State} {fs : List Frame}

/-! ### Records and copied frames -/

/-- The frames that are written: all of them in `TWEAK` mode, none in `DECODE` mode (R225). -/
def tweaked (m : Mode) (fs : List Frame) : List Frame := if m = .tweak then fs else []

theorem tweaked_append (m : Mode) (fs gs : List Frame) : tweaked m (fs ++ gs) = tweaked m fs ++ tweaked m gs := by
  cases m <;> rfl

/-- Records appended to `EV`, and frames to `OUT` in `TWEAK` mode (R46, R225). -/
def report (es : List Event) (fs : List Frame) (s : State) : State :=
  { s with
    ev := s.ev ++ es, out := s.out ++ tweaked s.mode fs, opos := s.opos + (tweaked s.mode fs).length }

theorem emit_eq_report (e : Event) (s : State) : emit e s = report [e] [] s := by
  simp [emit, report, tweaked]

/-- TE driven by a block operation (R225). -/
theorem appendTweaked (fs : List Frame) (s : State) :
    (if s.mode = .tweak then appendFrames fs s else s) = report [] fs s := by
  by_cases h : s.mode = .tweak <;> simp [appendFrames, report, tweaked, h]

theorem copyWord_eq_report (w : Word) (s : State) : copyWord w s = report [] (wordFrames w) s := appendTweaked _ s

theorem copyGap_eq_report (n : Nat) (s : State) : copyGap n s = report [] (gapFrames n) s := appendTweaked _ s

theorem report_report (es es' : List Event) (fs fs' : List Frame) (s : State) :
    report es' fs' (report es fs s) = report (es ++ es') (fs ++ fs') s := by
  simp [report, tweaked_append, Nat.add_assoc]

/-- A word reported and copied. -/
theorem copyWord_emit (w : Word) (e : Event) (s : State) : copyWord w (emit e s) = report [e] (wordFrames w) s := by
  rw [copyWord_eq_report, emit_eq_report, report_report, List.append_nil, List.nil_append]

/-- A gap reported and copied. -/
theorem copyGap_emit (n : Nat) (e : Event) (s : State) : copyGap n (emit e s) = report [e] (gapFrames n) s := by
  rw [copyGap_eq_report, emit_eq_report, report_report, List.append_nil, List.nil_append]

/-! ### The words after the count word -/

section
variable {α : Type} {take : Word → Nat → State → Act Unit} {close : Word → Nat → State → Act α} {n : Nat}
  {k : FaultKind} {info : FInfo} {status : Status}

/-- A block after its count word: `n` content words, each read and taken, then the checksum word, which closes it (R192,
R194). -/
def blockTail (take : Word → Nat → State → Act Unit) (close : Word → Nat → State → Act α) :
    Nat → State → Act α
  | 0, s => (readBlockWord s).bind fun c s1 => close c.w c.j s1
  | n + 1, s =>
    (readBlockWord s).bind fun r s1 => (take r.w r.j s1).bind fun _ s2 => blockTail take close n s2

/-- A content word read and taken. -/
theorem blockTail_word {x : InkedWord} (h : Ahead (x.frames ++ fs) s)
    (ht : take x.w s.widx (takeWord x s) = .done () t) : blockTail take close (n + 1) s = blockTail take close n t := by
  rw [blockTail, readBlockWord_word h, bind_done, ht, bind_done]

/-- The checksum word read. -/
theorem blockTail_check {x : InkedWord} (h : Ahead (x.frames ++ fs) s) :
    blockTail take close 0 s = close x.w s.widx (takeWord x s) := by
  rw [blockTail, readBlockWord_word h, bind_done]

/-- A content word that raises a fault ends the block, whatever follows (R282). -/
theorem blockTail_raises {x : InkedWord} (h : Ahead (x.frames ++ fs) s)
    (ht : Raises k info status (take x.w s.widx (takeWord x s))) :
    Raises k info status (blockTail take close (n + 1) s) := by
  rw [blockTail, readBlockWord_word h, bind_done]
  exact ht.bind _

/-- So does a read that raises one, at a content word or at the checksum word. -/
theorem blockTail_unread (h : Raises k info status (readBlockWord s)) :
    Raises k info status (blockTail take close n s) := by
  cases n with
  | zero => exact h.bind _
  | succ n => exact h.bind _

end

/-- The content words of a Notes block and its checksum word (R192). -/
theorem notesLoop_bind (n : Nat) (s : State) :
    ((notesLoop n s).bind fun _ s1 => (readBlockWord s1).bind fun c s2 => takeNotesChecksum c.w c.j s2) =
      blockTail takeNotesContent takeNotesChecksum n s := by
  induction n generalizing s with
  | zero => rfl
  | succ n ih => simp only [notesLoop, blockTail, bind_assoc, ih]

/-- The content words of a Bars block and its checksum word (R194). -/
theorem barsLoop_bind (n : Nat) (s : State) :
    ((barsLoop n s).bind fun _ s1 => (readBlockWord s1).bind fun c s2 => takeBarsChecksum c.w c.j s2) =
      blockTail takeBarsContent takeBarsChecksum n s := by
  induction n generalizing s with
  | zero => rfl
  | succ n ih => simp only [barsLoop, blockTail, bind_assoc, ih]

/-- `parseNotesBlock` as its count word and the words after it (R192). -/
theorem parseNotes_eq (s : State) :
    parseNotes s = (readBlockWord (beginNotes s)).bind fun r s1 =>
      blockTail takeNotesContent takeNotesChecksum r.w.toNat (takeNotesCount r.w r.g s1) := by
  have hcount : ∀ (n : Word) (g : Nat) (u : State), (takeNotesCount n g u).count = n := fun n g u => by
    simp [takeNotesCount]
  simp only [parseNotes, notesLoop_bind, hcount]

/-- `parseBarsBlock` as its count word and the words after it (R194). -/
theorem parseBars_eq (s : State) :
    parseBars s = (readBlockWord (beginBars s)).bind fun r s1 => (takeBarsCount r.w r.g r.j s1).bind fun _ s2 =>
      blockTail takeBarsContent takeBarsChecksum s2.count.toNat s2 := by
  simp only [parseBars, barsLoop_bind]

/-! ### The checksum word -/

theorem csVerify_self (e : Word) (j : Option Nat) (s : State) : csVerify e e j s = .done () s := if_pos rfl

/-- Different values raise ChecksumError (R154, R273). -/
theorem csVerify_raises {e c : Word} (h : e ≠ c) (j : Nat) (s : State) :
    Raises .checksumError
      { widx := some j, blk := some s.blk, voice := some s.voice, expected := some e, computed := some c } s.status
      (csVerify e c (some j) s) :=
  ⟨s, if_neg h, rfl⟩

end Sys2Proof.Machine

/-! SUPPORT. A Notes block word by word, and as far as its words raise nothing (R192, R193, R197, R198). -/

namespace Sys2Proof.Machine

variable {s : State} {fs : List Frame}

/-! ### Cells of NOTES -/

/-- Words stored in the cells from an index on (R192). -/
def Memory.store : Memory → Nat → List Word → Memory
  | m, _, [] => m
  | m, i, w :: ws => Memory.store (m.write i w) (i + 1) ws

theorem write_cellsFrom (k : Nat) (vs : List Word) (w : Word) :
    Memory.write (cellsFrom k vs) (k + vs.length) w = cellsFrom k (vs ++ [w]) := by
  induction vs generalizing k with
  | nil => rfl
  | cons v vs ih =>
    have hk : k + (v :: vs).length = k + 1 + vs.length := by simp only [List.length_cons]; omega
    rw [cellsFrom, Memory.write, if_neg (by omega), if_neg (by omega), hk, ih]
    rfl

theorem store_cellsFrom (vs ws : List Word) :
    Memory.store (cellsFrom 0 vs) vs.length ws = cellsFrom 0 (vs ++ ws) := by
  induction ws generalizing vs with
  | nil => rw [Memory.store, List.append_nil]
  | cons w ws ih =>
    have hw := write_cellsFrom 0 vs w
    have hv := ih (vs ++ [w])
    rw [Nat.zero_add] at hw
    rw [List.length_append, List.length_singleton, List.append_assoc, List.singleton_append] at hv
    rw [Memory.store, hw, hv]

/-- The words of a block stored in an empty buffer (R192). -/
theorem store_empty (ws : List Word) : Memory.store [] 0 ws = cellsFrom 0 ws := store_cellsFrom [] ws

/-! ### The count word -/

/-- After the count word `n` of a Notes block, read after a gap `g` (R192). -/
def openNotes (n : Word) (g : Nat) (s : State) : State :=
  report ((if s.seq = .expectLeaderGap then [Event.gap .leader g] else []) ++ [.count s.voice .notes n])
    ((if s.seq = .expectLeaderGap then gapFrames g else []) ++ wordFrames n)
    { s with seq := .expectNotesBlock, count := n, notesCount := n }

theorem takeNotesCount_eq (n : Word) (g : Nat) (s : State) : takeNotesCount n g s = openNotes n g s := by
  by_cases h : s.seq = .expectLeaderGap
  · simp only [takeNotesCount, if_pos h, copyGap_emit, copyWord_emit, openNotes, ← report_report]
    rfl
  · simp only [takeNotesCount, if_neg h, copyWord_emit, openNotes, List.nil_append]

/-! ### A content word -/

/-- The tempo word of the override is the one `encodeTempo` packs (R168, R197). -/
theorem encodeTempo_toNat_eq_tempoWord (t : Tempo15) : encodeTempo t.toNat = tempoWord t := by
  have hparam : (tempoWord t &&& Config.tempoMask).toNat = t.toNat := by
    have ht := congrArg BitVec.toNat (tempo15_tempoWord t)
    have hmask := toNat_and_tempoMask (tempoWord t)
    rw [tempo15, BitVec.toNat_setWidth] at ht
    omega
  rw [← hparam, encodeTempo_and_tempoMask (classify_tempoWord t)]

theorem tempoSubst_eq (w : Word) (s : State) : tempoSubst w s = substWord (override s) w := by
  by_cases ho : s.mode = .tweak ∧ s.tempoEn = true
  · simp [tempoSubst, substWord, override, ho, encodeTempo_toNat_eq_tempoWord]
  · have hs : ¬(s.mode = .tweak ∧ s.tempoEn = true ∧ classify w = .tempo) := fun h => ho ⟨h.1, h.2.1⟩
    rw [tempoSubst, if_neg hs, override, if_neg ho, substWord]

theorem substWord_of_ne_tempo (o : Option Tempo15) {w : Word} (h : classify w ≠ .tempo) : substWord o w = w := by
  cases o with
  | none => rfl
  | some t => exact if_neg h

/-- A legal content word is reported by its class and rewritten under the override (R193, R197). -/
theorem noteContent_of_legal {w : Word} (h : legalContent w) (i j : Nat) (s : State) :
    noteContent w i j s = .done (substWord (override s) w) (emit (contentEvent s.voice (override s) i w) s) := by
  cases hc : classify w with
  | sep => simp [noteContent, contentEvent, hc, substWord_of_ne_tempo]
  | tempo => simp [noteContent, contentEvent, hc, tempoSubst_eq]
  | note =>
    obtain ⟨a, ha⟩ := Option.isSome_iff_exists.1 (h hc)
    simp [noteContent, contentEvent, hc, nameArticulation_eq, ha, substWord_of_ne_tempo]

/-- A note word with an illegal code raises InvalidArticulation (R193, R276). -/
theorem noteContent_raises {w : Word} (h : ¬legalContent w) (i j : Nat) (s : State) :
    Raises .invalidArticulation
      { widx := some j, blk := some s.blk, voice := some s.voice, code := some (noteFields w).art, word := some w }
      s.status (noteContent w i j s) := by
  obtain ⟨hc, hart⟩ : classify w = .note ∧ articulation (noteFields w).art = none := by
    simpa [legalContent] using h
  refine ⟨s, ?_, rfl⟩
  simp [noteContent, hc, nameArticulation_eq, hart, infoAt]

/-- After content words of a Notes block that raise nothing (R192, R193). -/
def storeNotes (ws : List Word) (s : State) : State :=
  report (contentEvents s.voice (override s) s.idx ws) ((ws.map (substWord (override s))).flatMap wordFrames)
    { s with
      notes := Memory.store s.notes s.idx ws, sumIn := ws.foldl csAdd s.sumIn,
      sumOut := (ws.map (substWord (override s))).foldl csAdd s.sumOut, idx := s.idx + ws.length }

theorem storeNotes_nil (s : State) : storeNotes [] s = s := by
  simp [storeNotes, contentEvents, report, tweaked, Memory.store]

theorem storeNotes_cons (w : Word) (ws : List Word) (s : State) :
    storeNotes (w :: ws) s = storeNotes ws (storeNotes [w] s) := by
  simp [storeNotes, report, tweaked_append, contentEvents, Memory.store, override, Nat.add_assoc, Nat.add_comm 1]

theorem takeNotesContent_of_legal {w : Word} (h : legalContent w) (j : Nat) (s : State) :
    takeNotesContent w j s = .done () (storeNotes [w] s) := by
  rw [takeNotesContent, noteContent_of_legal h, bind_done]
  simp [copyWord_eq_report, emit, storeNotes, report, contentEvents, Memory.store, override]

theorem takeNotesContent_raises {w : Word} (h : ¬legalContent w) (j : Nat) (s : State) :
    Raises .invalidArticulation
      { widx := some j, blk := some s.blk, voice := some s.voice, code := some (noteFields w).art, word := some w }
      s.status (takeNotesContent w j s) :=
  (noteContent_raises h s.idx j { s with notes := s.notes.write s.idx w, sumIn := csAdd s.sumIn w }).bind _

/-! ### The checksum word -/

/-- After the checksum word `c` of a Notes block (R192, R198). -/
def closeNotes (c : Word) (s : State) : State :=
  report [.checksum s.voice .notes c s.sumIn (some s.sumOut)] (wordFrames s.sumOut)
    { s with notesValid := true, seq := .expectGap1 }

theorem takeNotesChecksum_of_eq {c : Word} (h : c = s.sumIn) (j : Nat) :
    takeNotesChecksum c j s = .done () (closeNotes c s) := by
  subst h
  rw [takeNotesChecksum, csVerify_self, bind_done, copyWord_emit]
  rfl

theorem takeNotesChecksum_raises {c : Word} (h : c ≠ s.sumIn) (j : Nat) :
    Raises .checksumError
      { widx := some j, blk := some s.blk, voice := some s.voice, expected := some c, computed := some s.sumIn }
      s.status (takeNotesChecksum c j s) := (csVerify_raises h j s).bind _

/-! ### The block -/

theorem ahead_beginNotes (h : Ahead fs s) : Ahead fs (beginNotes s) := ⟨h.between, h.frames⟩

/-- Inside a Notes block: after its count word `c` and content words `xs` (R192). -/
def notesAfter (c : InkedWord) (xs : List InkedWord) (s : State) : State :=
  storeNotes (xs.map (·.w)) (takeWords xs (openNotes c.w (s.gap + c.blanks.length) (takeWord c (beginNotes s))))

/-- Content words that raise nothing, read and taken (R192). -/
theorem blockTail_notes {xs : List InkedWord} (n : Nat) (h : Fresh (xs.flatMap InkedWord.frames ++ fs) s)
    (hl : ∀ x ∈ xs, legalContent x.w) :
    blockTail takeNotesContent takeNotesChecksum (xs.length + n) s =
      blockTail takeNotesContent takeNotesChecksum n (storeNotes (xs.map (·.w)) (takeWords xs s)) := by
  induction xs generalizing s with
  | nil => rw [List.map_nil, storeNotes_nil, h.takeWords_nil, List.length_nil, Nat.zero_add]
  | cons x xs ih =>
    obtain ⟨hx, hl⟩ := List.forall_mem_cons.1 hl
    rw [List.flatMap_cons, List.append_assoc] at h
    have hnext : Fresh (xs.flatMap InkedWord.frames ++ fs) (storeNotes [x.w] (takeWord x s)) :=
      (fresh_takeWord h.toAhead).congr rfl
    rw [List.length_cons, Nat.add_right_comm, blockTail_word h.toAhead (takeNotesContent_of_legal hx _ _), ih hnext hl,
      List.map_cons, storeNotes_cons x.w (xs.map _), h.takeWords_cons]
    rfl

section
variable {c : InkedWord} {xs : List InkedWord} (h : Ahead ((c :: xs).flatMap InkedWord.frames ++ fs) s)
include h

theorem fresh_openNotes : Fresh (xs.flatMap InkedWord.frames ++ fs)
    (openNotes c.w (s.gap + c.blanks.length) (takeWord c (beginNotes s))) := by
  rw [List.flatMap_cons, List.append_assoc] at h
  exact (fresh_takeWord (ahead_beginNotes h)).congr rfl

theorem fresh_notesAfter : Fresh fs (notesAfter c xs s) :=
  (fresh_takeWords (fresh_openNotes h).toAhead).congr rfl

/-- A Notes block goes on after its count word and content words that raise nothing (R192). -/
theorem parseNotes_after {n : Nat} (hn : c.w.toNat = xs.length + n) (hl : ∀ x ∈ xs, legalContent x.w) :
    parseNotes s = blockTail takeNotesContent takeNotesChecksum n (notesAfter c xs s) := by
  have hopen := fresh_openNotes h
  rw [List.flatMap_cons, List.append_assoc] at h
  rw [parseNotes_eq, readBlockWord_word (ahead_beginNotes h), bind_done, takeNotesCount_eq, hn]
  exact blockTail_notes n hopen hl

end

theorem parseNotes_unread {k : FaultKind} {info : FInfo} {status : Status}
    (h : Raises k info status (readBlockWord (beginNotes s))) : Raises k info status (parseNotes s) :=
  h.bind _

end Sys2Proof.Machine

/-! SUPPORT. Bars in `NOTES`, and a Bars block word by word, as far as its words raise nothing (R194 to R196, R202). -/

namespace Sys2Proof.Machine

variable {s : State} {ns : List Word} {fs : List Frame}

/-! ### Bars -/

theorem read_cellsFrom (ns : List Word) (k i : Nat) : Memory.read (cellsFrom k ns) (k + i) = ns[i]? := by
  induction ns generalizing k i with
  | nil => rfl
  | cons w ws ih =>
    rw [cellsFrom, Memory.read_cons]
    cases i with
    | zero => simp
    | succ i => rw [if_neg (by omega), show k + (i + 1) = k + 1 + i by omega, ih, List.getElem?_cons_succ]

theorem read_cells (ns : List Word) (i : Nat) : Memory.read (cellsFrom 0 ns) i = ns[i]? := by
  simpa using read_cellsFrom ns 0 i

/-- The words of consecutive cells (R12, R66). -/
theorem readRange_cells (ns : List Word) {i n : Nat} (h : i + n ≤ ns.length) :
    Memory.readRange (cellsFrom 0 ns) i n = .ok ((ns.drop i).take n) := by
  induction n generalizing i with
  | zero => simp [Memory.readRange]
  | succ n ih =>
    have hi : i < ns.length := by omega
    rw [Memory.readRange, read_cells, List.getElem?_eq_getElem hi, ih (by omega), List.drop_eq_getElem_cons hi,
      List.take_succ_cons]

/-- The words of the bar that begins at index `i`, as `barWords` has them (R196). -/
def barFrom (ns : List Word) (i : Nat) : List Word := (ns.drop i).takeWhile fun w => w != Config.sep

/-- A bar ends at the next separator or at the end of the array (R196). -/
theorem sliceEnd_cells (ns : List Word) {i n : Nat} (h : i + n = ns.length) :
    sliceEnd (cellsFrom 0 ns) i n = i + (barFrom ns i).length := by
  induction n generalizing i with
  | zero => simp [sliceEnd, barFrom, show ns.length ≤ i by omega]
  | succ n ih =>
    have hi : i < ns.length := by omega
    rw [sliceEnd, read_cells, List.getElem?_eq_getElem hi, ih (by omega), barFrom, barFrom,
      List.drop_eq_getElem_cons hi, List.takeWhile_cons]
    by_cases hsep : ns[i] = Config.sep
    · simp [hsep]
    · simp only [Option.some.injEq, hsep, if_false, bne_iff_ne, ne_eq, not_false_eq_true, if_true, List.length_cons]
      omega

/-- `NOTES` holds these words and `notes_count` counts them (R40, R41). -/
structure NotesHeld (ns : List Word) (s : State) : Prop where
  small : ns.length < 262144
  count : s.notesCount = BitVec.ofNat 18 ns.length
  cells : s.notes = cellsFrom 0 ns

theorem NotesHeld.toNat_count (h : NotesHeld ns s) : s.notesCount.toNat = ns.length := by
  rw [h.count, BitVec.toNat_ofNat]
  exact Nat.mod_eq_of_lt h.small

/-- The bar at an index below `notes_count` (R196). -/
theorem NotesHeld.barSlice_eq (h : NotesHeld ns s) {k : Word} (hk : k.toNat < ns.length) :
    barSlice k s = .ok (barWords ns k) := by
  have hsplit : barFrom ns k.toNat ++ (ns.drop k.toNat).dropWhile (fun w => w != Config.sep) = ns.drop k.toNat :=
    List.takeWhile_append_dropWhile
  have hle : (barFrom ns k.toNat).length ≤ ns.length - k.toNat := by
    rw [← List.length_drop, ← hsplit, List.length_append]
    omega
  have htake : (ns.drop k.toNat).take (barFrom ns k.toNat).length = barWords ns k := by
    rw [← hsplit, List.take_left]
    rfl
  simp only [barSlice]
  rw [h.toNat_count, h.cells, sliceEnd_cells ns (by omega), Nat.add_sub_cancel_left, readRange_cells ns (by omega),
    htake]

/-! ### The count word -/

theorem takeBarsCount_raises (n : Word) (j : Nat) (s : State) :
    Raises .structuralError
      { widx := some j, blk := some s.blk, voice := some s.voice, sub := some 1, gap := some 0 } s.status
      (takeBarsCount n 0 j s) := ⟨s, rfl, rfl⟩

/-- After the count word `n` of a Bars block, read after a gap `g` (R194). -/
def openBars (n : Word) (g : Nat) (s : State) : State :=
  report [.gap .notesBars g, .count s.voice .bars n] (gapFrames g ++ wordFrames n)
    { s with seq := .expectBarsBlock, count := n }

theorem takeBarsCount_of_gap {g : Nat} (h : g ≠ 0) (n : Word) (j : Nat) (s : State) :
    takeBarsCount n g j s = .done () (openBars n g s) := by
  have hreport := report_report [.gap .notesBars g] [.count s.voice .bars n] (gapFrames g) (wordFrames n)
    { s with seq := .expectBarsBlock, count := n }
  rw [takeBarsCount, if_neg h, copyGap_emit]
  simp only [copyWord_emit]
  exact congrArg (Act.done ()) hreport

/-! ### A content word -/

/-- A content word of a Bars block that raises nothing is reported with its bar (R195). -/
theorem NotesHeld.barContent_eq (h : NotesHeld ns s) {k : Word} (hk : k = Config.sep ∨ k.toNat < ns.length)
    (i j : Nat) :
    barContent k i j s = .done () (emit (barEvent s.voice ns i k) s) := by
  by_cases hsep : k = Config.sep
  · rw [barContent, if_pos hsep, barEvent, if_pos hsep]
  · have hlt := hk.resolve_left hsep
    have hle : ¬s.notesCount.toNat ≤ k.toNat := by rw [h.toNat_count]; omega
    rw [barContent, if_neg hsep, if_neg hle, h.barSlice_eq hlt, barEvent, if_neg hsep]

/-- An index not below `notes_count` raises IndexOutOfRange (R195, R275). -/
theorem NotesHeld.barContent_raises (h : NotesHeld ns s) {k : Word} (hsep : k ≠ Config.sep)
    (hk : ns.length ≤ k.toNat) (i j : Nat) :
    Raises .indexOutOfRange
      { widx := some j, blk := some s.blk, voice := some s.voice, index := some k, notesCount := some s.notesCount }
      s.status (barContent k i j s) := by
  have hle : s.notesCount.toNat ≤ k.toNat := by rw [h.toNat_count]; exact hk
  exact ⟨s, by rw [barContent, if_neg hsep, if_pos hle]; rfl, rfl⟩

/-- After content words of a Bars block that raise nothing (R194, R195). -/
def passBars (ns ks : List Word) (s : State) : State :=
  report (barEvents s.voice ns s.idx ks) (ks.flatMap wordFrames)
    { s with sumIn := ks.foldl csAdd s.sumIn, idx := s.idx + ks.length }

theorem passBars_nil (ns : List Word) (s : State) : passBars ns [] s = s := by
  simp [passBars, barEvents, report, tweaked]

theorem passBars_cons (ns : List Word) (k : Word) (ks : List Word) (s : State) :
    passBars ns (k :: ks) s = passBars ns ks (passBars ns [k] s) := by
  simp [passBars, report, tweaked_append, barEvents, Nat.add_assoc, Nat.add_comm 1]

theorem NotesHeld.takeBarsContent_eq (h : NotesHeld ns s) {k : Word} (hk : k = Config.sep ∨ k.toNat < ns.length)
    (j : Nat) : takeBarsContent k j s = .done () (passBars ns [k] s) := by
  have hsum : NotesHeld ns { s with sumIn := csAdd s.sumIn k } := ⟨h.small, h.count, h.cells⟩
  rw [takeBarsContent, hsum.barContent_eq hk, bind_done, copyWord_emit]
  simp [passBars, report, barEvents]

theorem NotesHeld.takeBarsContent_raises (h : NotesHeld ns s) {k : Word} (hsep : k ≠ Config.sep)
    (hk : ns.length ≤ k.toNat) (j : Nat) :
    Raises .indexOutOfRange
      { widx := some j, blk := some s.blk, voice := some s.voice, index := some k, notesCount := some s.notesCount }
      s.status (takeBarsContent k j s) := by
  have hsum : NotesHeld ns { s with sumIn := csAdd s.sumIn k } := ⟨h.small, h.count, h.cells⟩
  exact (hsum.barContent_raises hsep hk s.idx j).bind _

/-! ### The checksum word -/

/-- After the checksum word `c` of a Bars block (R194, R202). -/
def closeBars (c : Word) (s : State) : State :=
  report [.checksum s.voice .bars c s.sumIn none] (wordFrames c) { s with notesValid := false, seq := .expectGap2 }

theorem takeBarsChecksum_of_eq {c : Word} (h : c = s.sumIn) (j : Nat) :
    takeBarsChecksum c j s = .done (fuPeek s) (closeBars c s) := by
  subst h
  rw [takeBarsChecksum, csVerify_self, bind_done, if_neg (by simp [barsCountMismatch]), copyWord_emit]
  rfl

theorem takeBarsChecksum_raises {c : Word} (h : c ≠ s.sumIn) (j : Nat) :
    Raises .checksumError
      { widx := some j, blk := some s.blk, voice := some s.voice, expected := some c, computed := some s.sumIn }
      s.status (takeBarsChecksum c j s) := (csVerify_raises h j s).bind _

/-! ### The block -/

theorem ahead_beginBars (h : Ahead fs s) : Ahead fs (beginBars s) := ⟨h.between, h.frames⟩

/-- Inside a Bars block: after its count word `c` and content words `xs` (R194). -/
def barsAfter (ns : List Word) (c : InkedWord) (xs : List InkedWord) (s : State) : State :=
  passBars ns (xs.map (·.w)) (takeWords xs (openBars c.w (s.gap + c.blanks.length) (takeWord c (beginBars s))))

/-- Content words that raise nothing, read and passed through (R194). -/
theorem NotesHeld.blockTail_bars (hs : NotesHeld ns s) {xs : List InkedWord} (n : Nat)
    (h : Fresh (xs.flatMap InkedWord.frames ++ fs) s) (hok : ∀ x ∈ xs, x.w = Config.sep ∨ x.w.toNat < ns.length) :
    blockTail takeBarsContent takeBarsChecksum (xs.length + n) s =
      blockTail takeBarsContent takeBarsChecksum n (passBars ns (xs.map (·.w)) (takeWords xs s)) := by
  induction xs generalizing s with
  | nil => rw [List.map_nil, passBars_nil, h.takeWords_nil, List.length_nil, Nat.zero_add]
  | cons x xs ih =>
    obtain ⟨hx, hok⟩ := List.forall_mem_cons.1 hok
    rw [List.flatMap_cons, List.append_assoc] at h
    have hread : NotesHeld ns (takeWord x s) := ⟨hs.small, hs.count, hs.cells⟩
    have hpassed : NotesHeld ns (passBars ns [x.w] (takeWord x s)) := ⟨hs.small, hs.count, hs.cells⟩
    have hnext : Fresh (xs.flatMap InkedWord.frames ++ fs) (passBars ns [x.w] (takeWord x s)) :=
      (fresh_takeWord h.toAhead).congr rfl
    rw [List.length_cons, Nat.add_right_comm, blockTail_word h.toAhead (hread.takeBarsContent_eq hx _),
      ih hpassed hnext hok, List.map_cons, passBars_cons ns x.w (xs.map _), h.takeWords_cons]
    rfl

/-- A Bars block is what its count word makes of it, and then the words after that (R194). -/
theorem parseBars_count {c : InkedWord} (h : Ahead (c.frames ++ fs) s) :
    parseBars s = (takeBarsCount c.w (s.gap + c.blanks.length) s.widx (takeWord c (beginBars s))).bind fun _ t =>
      blockTail takeBarsContent takeBarsChecksum t.count.toNat t := by
  rw [parseBars_eq, readBlockWord_word (ahead_beginBars h)]
  rfl

section
variable {c : InkedWord} {xs : List InkedWord} (h : Ahead ((c :: xs).flatMap InkedWord.frames ++ fs) s)
include h

theorem fresh_openBars : Fresh (xs.flatMap InkedWord.frames ++ fs)
    (openBars c.w (s.gap + c.blanks.length) (takeWord c (beginBars s))) := by
  rw [List.flatMap_cons, List.append_assoc] at h
  exact (fresh_takeWord (ahead_beginBars h)).congr rfl

theorem fresh_barsAfter (ns : List Word) : Fresh fs (barsAfter ns c xs s) :=
  (fresh_takeWords (fresh_openBars h).toAhead).congr rfl

/-- A Bars block goes on after its gap, its count word and content words that raise nothing (R194). -/
theorem parseBars_after (hs : NotesHeld ns s) (hgap : 0 < c.blanks.length) {n : Nat} (hn : c.w.toNat = xs.length + n)
    (hok : ∀ x ∈ xs, x.w = Config.sep ∨ x.w.toNat < ns.length) :
    parseBars s = blockTail takeBarsContent takeBarsChecksum n (barsAfter ns c xs s) := by
  have hopen := fresh_openBars h
  have hheld : NotesHeld ns (openBars c.w (s.gap + c.blanks.length) (takeWord c (beginBars s))) :=
    ⟨hs.small, hs.count, hs.cells⟩
  have hne : s.gap + c.blanks.length ≠ 0 := by omega
  rw [List.flatMap_cons, List.append_assoc] at h
  calc parseBars s
    _ = blockTail takeBarsContent takeBarsChecksum c.w.toNat
          (openBars c.w (s.gap + c.blanks.length) (takeWord c (beginBars s))) := by
      rw [parseBars_count h, takeBarsCount_of_gap hne]
      rfl
    _ = blockTail takeBarsContent takeBarsChecksum n (barsAfter ns c xs s) := by
      rw [hn]
      exact hheld.blockTail_bars n hopen hok

end

theorem parseBars_unread {k : FaultKind} {info : FInfo} {status : Status}
    (h : Raises k info status (readBlockWord (beginBars s))) : Raises k info status (parseBars s) := by
  rw [parseBars_eq]
  exact h.bind _

end Sys2Proof.Machine

/-! SUPPORT. Whole blocks that raise nothing, and the block operations where their preconditions hold (R192, R194,
R197). -/

namespace Sys2Proof.Machine

variable {s : State} {b : InkedBlock} {fs : List Frame}

/-- The count word holds the number of the content words (R101). -/
theorem InkedBlock.counted.toNat (h : b.counted) : b.count.w.toNat = b.content.length := by
  rw [h.2, BitVec.toNat_ofNat]
  exact Nat.mod_eq_of_lt h.1

/-- The frames of a block, its checksum word apart. -/
theorem InkedBlock.frames_eq (b : InkedBlock) :
    b.frames = (b.count :: b.content).flatMap InkedWord.frames ++ b.check.frames := by
  simp [InkedBlock.frames, InkedBlock.all]

/-- The words of a block stand on the tape one after the other. -/
theorem ahead_words (h : Ahead (b.frames ++ fs) s) :
    Ahead ((b.count :: b.content).flatMap InkedWord.frames ++ (b.check.frames ++ fs)) s := by
  rwa [InkedBlock.frames_eq, List.append_assoc] at h

theorem InkedBlock.length_frames (b : InkedBlock) :
    b.frames.length =
      b.count.frames.length + (b.content.flatMap InkedWord.frames).length + b.check.frames.length := by
  simp [InkedBlock.frames_eq, Nat.add_assoc]

theorem InkedBlock.length_words (b : InkedBlock) : b.words.length = b.content.length := List.length_map _

theorem InkedBlock.gap_eq (b : InkedBlock) (hg : s.gap = 0) : s.gap + b.count.blanks.length = b.gap := by
  rw [hg, Nat.zero_add, InkedBlock.gap]

/-- FU after it has read a block from `gap` = 0 (R133). -/
def passBlock (b : InkedBlock) (s : State) : State :=
  { s with
    ipos := s.ipos + b.frames.length, acc := 0#18, widx := s.widx + b.words.length + 2,
    wordGap := b.check.blanks.length, streamEnded := false }

/-- The words of a block, read one after the other. -/
theorem takeWords_eq_passBlock (hg : s.gap = 0) :
    takeWord b.check (takeWords b.content (takeWord b.count s)) = passBlock b s := by
  have hpos : s.ipos + b.frames.length =
      s.ipos + b.count.frames.length + (b.content.flatMap InkedWord.frames).length + b.check.frames.length := by
    rw [b.length_frames]; omega
  have hwidx : s.widx + b.words.length + 2 = s.widx + 1 + b.content.length + 1 := by rw [b.length_words]; omega
  rw [passBlock, hpos, hwidx, hg, ← Nat.zero_add b.check.blanks.length]
  rfl

/-! ### A Notes block -/

/-- The content words of a Notes block as they are written under a tempo override (R197). -/
def InkedBlock.rewritten (b : InkedBlock) (o : Option Tempo15) : List Word := b.words.map (substWord o)

/-- The registers that a Notes block read from `gap` = 0 leaves, but for `EV` and `OUT` (R192). -/
def notesRegs (b : InkedBlock) (s : State) : State :=
  { passBlock b s with
    sumIn := blockChecksum b.words, sumOut := blockChecksum (b.rewritten (override s)), blk := .notes,
    count := b.count.w, idx := b.words.length, notesCount := b.count.w, notes := cellsFrom 0 b.words,
    notesValid := true, seq := .expectGap1 }

/-- A Notes block that raises nothing, read and reported whole (R192, R193, R198). -/
def notesParsed (b : InkedBlock) (s : State) : State :=
  report ((if s.seq = .expectLeaderGap then [Event.gap .leader b.gap] else []) ++ notesEvents s.voice (override s) b)
    ((if s.seq = .expectLeaderGap then gapFrames b.gap else []) ++ blockFrames (b.rewritten (override s)))
    (notesRegs b s)

/-- What the words of a Notes block report one after the other is what the block reports (R192). -/
theorem closeNotes_eq_notesParsed (hg : s.gap = 0) (hcount : b.counted) :
    closeNotes b.check.w (takeWord b.check (notesAfter b.count b.content s)) = notesParsed b s := by
  have hframes : blockFrames (b.rewritten (override s)) =
      wordFrames b.count.w ++ (b.rewritten (override s)).flatMap wordFrames ++
        wordFrames (blockChecksum (b.rewritten (override s))) := by
    rw [blockFrames, InkedBlock.rewritten, List.length_map, b.length_words, hcount.2]
  calc closeNotes b.check.w (takeWord b.check (notesAfter b.count b.content s))
    _ = closeNotes b.check.w (storeNotes b.words (openNotes b.count.w b.gap
          (takeWord b.check (takeWords b.content (takeWord b.count (beginNotes s)))))) := by
      rw [notesAfter, b.gap_eq hg]
      rfl
    _ = closeNotes b.check.w (storeNotes b.words (openNotes b.count.w b.gap (passBlock b (beginNotes s)))) := by
      rw [takeWords_eq_passBlock (s := beginNotes s) hg]
    _ = report
          [.checksum s.voice .notes b.check.w (blockChecksum b.words)
            (some (blockChecksum (b.rewritten (override s))))]
          (wordFrames (blockChecksum (b.rewritten (override s))))
          (report (contentEvents s.voice (override s) 0 b.words) ((b.rewritten (override s)).flatMap wordFrames)
            (report
              ((if s.seq = .expectLeaderGap then [Event.gap .leader b.gap] else []) ++
                [.count s.voice .notes b.count.w])
              ((if s.seq = .expectLeaderGap then gapFrames b.gap else []) ++ wordFrames b.count.w)
              (notesRegs b s))) := by
      rw [notesRegs, ← store_empty, ← Nat.zero_add b.words.length]
      rfl
    _ = notesParsed b s := by
      rw [report_report, report_report, notesParsed, hframes, notesEvents]
      simp only [List.append_assoc, List.cons_append, List.nil_append, InkedBlock.rewritten]

/-- A Notes block that raises nothing is parsed (R192). -/
theorem parseNotes_of_notesOk (h : Ahead (b.frames ++ fs) s) (hg : s.gap = 0) (hb : b.notesOk) :
    parseNotes s = .done () (notesParsed b s) := by
  obtain ⟨hcount, hsum, hl⟩ := hb
  have hafter := (fresh_notesAfter (ahead_words h)).toAhead
  rw [parseNotes_after (ahead_words h) (n := 0) hcount.toNat hl, blockTail_check hafter,
    ← closeNotes_eq_notesParsed hg hcount]
  exact takeNotesChecksum_of_eq (s := takeWord b.check (notesAfter b.count b.content s)) hsum _

/-! ### A Bars block -/

/-- The registers that a Bars block read from `gap` = 0 leaves, but for `EV` and `OUT` (R194). -/
def barsRegs (b : InkedBlock) (s : State) : State :=
  { passBlock b s with
    sumIn := blockChecksum b.words, blk := .bars, count := b.count.w, idx := b.words.length, notesValid := false,
    seq := .expectGap2 }

/-- A Bars block that raises nothing, read and reported whole (R194, R195). -/
def barsParsed (ns : List Word) (b : InkedBlock) (s : State) : State :=
  report (barsEvents s.voice ns b) (gapFrames b.gap ++ blockFrames b.words) (barsRegs b s)

/-- What the words of a Bars block report one after the other is what the block reports (R194). -/
theorem closeBars_eq_barsParsed (ns : List Word) (hg : s.gap = 0) (hcount : b.counted) (hsum : b.summed) :
    closeBars b.check.w (takeWord b.check (barsAfter ns b.count b.content s)) = barsParsed ns b s := by
  have hframes : blockFrames b.words =
      wordFrames b.count.w ++ b.words.flatMap wordFrames ++ wordFrames b.check.w := by
    rw [blockFrames, b.length_words, hcount.2, hsum]
  calc closeBars b.check.w (takeWord b.check (barsAfter ns b.count b.content s))
    _ = closeBars b.check.w (passBars ns b.words (openBars b.count.w b.gap
          (takeWord b.check (takeWords b.content (takeWord b.count (beginBars s)))))) := by
      rw [barsAfter, b.gap_eq hg]
      rfl
    _ = closeBars b.check.w (passBars ns b.words (openBars b.count.w b.gap (passBlock b (beginBars s)))) := by
      rw [takeWords_eq_passBlock (s := beginBars s) hg]
    _ = report [.checksum s.voice .bars b.check.w (blockChecksum b.words) none] (wordFrames b.check.w)
          (report (barEvents s.voice ns 0 b.words) (b.words.flatMap wordFrames)
            (report [.gap .notesBars b.gap, .count s.voice .bars b.count.w] (gapFrames b.gap ++ wordFrames b.count.w)
              (barsRegs b s))) := by
      rw [barsRegs, ← Nat.zero_add b.words.length]
      rfl
    _ = barsParsed ns b s := by
      rw [report_report, report_report, barsParsed, hframes, barsEvents]
      simp only [List.append_assoc, List.cons_append, List.nil_append]

/-- A Bars block that raises nothing is parsed, and the peek at what follows is its result (R194, R202). -/
theorem parseBars_of_barsOk {ns : List Word} (h : Ahead (b.frames ++ fs) s) (hg : s.gap = 0) (hs : NotesHeld ns s)
    (hb : b.barsOk ns.length) : parseBars s = .done (countBlanks fs) (barsParsed ns b s) := by
  obtain ⟨hcount, hsum, hgap, hok⟩ := hb
  have hafter := (fresh_barsAfter (ahead_words h) ns).toAhead
  rw [parseBars_after (ahead_words h) hs hgap (n := 0) hcount.toNat hok, blockTail_check hafter,
    ← closeBars_eq_barsParsed ns hg hcount hsum,
    takeBarsChecksum_of_eq (s := takeWord b.check (barsAfter ns b.count b.content s)) hsum, fuPeek,
    (fresh_takeWord hafter).frames]

/-! ### The block operations -/

/-- Where `parseNotesBlock` is accepted (R192). -/
structure NotesDue (s : State) : Prop where
  ready : Ready s
  running : s.status.running = true
  seq : s.seq = .expectLeaderGap ∨ s.seq = .expectNotesBlock
  between : s.fcnt = 0#2

/-- Where `parseBarsBlock` is accepted (R194, R311). -/
structure BarsDue (s : State) : Prop where
  ready : Ready s
  running : s.status.running = true
  seq : s.seq = .expectGap1
  valid : s.notesValid = true
  between : s.fcnt = 0#2

theorem NotesDue.exec_parseNotesBlock (h : NotesDue s) :
    exec .parseNotesBlock s = finish (fun _ => Result.none) (parseNotes s) := by
  rw [exec, execParseNotesBlock, accept_of_ready _ h.ready.1 h.ready.2, require_of _ _ h.running, require_of _ _ h.seq,
    require_of _ _ h.between]

theorem BarsDue.exec_parseBarsBlock (h : BarsDue s) :
    exec .parseBarsBlock s = finish (fun p => Result.peek p.1 p.2) (parseBars s) := by
  rw [exec, execParseBarsBlock, accept_of_ready _ h.ready.1 h.ready.2, require_of _ _ h.running, require_of _ _ h.seq,
    require_of _ _ h.valid, require_of _ _ h.between]

/-- In `TWEAK` mode `parseTempoSubstitution` is `parseNotesBlock` (R197). -/
theorem exec_parseTempoSubstitution (hr : Ready s) (hm : s.mode = .tweak) :
    exec .parseTempoSubstitution s = exec .parseNotesBlock s := by
  change execParseTempoSubstitution s = execParseNotesBlock s
  rw [execParseTempoSubstitution, accept_of_ready _ hr.1 hr.2, require_of _ _ hm]

/-! ### Faults of the block operations -/

section
variable {k : FaultKind} {info : FInfo} {c : InkedWord} {xs : List InkedWord}

theorem NotesDue.raises (h : NotesDue s) (hout : s.status.outValid = false)
    (hx : Raises k info s.status (parseNotes s)) : ∃ t, exec .parseNotesBlock s = .next t ∧ faultHeld k info t := by
  rw [h.exec_parseNotesBlock]
  exact hx.finish _ h.ready.2 hout

theorem BarsDue.raises (h : BarsDue s) (hout : s.status.outValid = false)
    (hx : Raises k info s.status (parseBars s)) : ∃ t, exec .parseBarsBlock s = .next t ∧ faultHeld k info t := by
  rw [h.exec_parseBarsBlock]
  exact hx.finish _ h.ready.2 hout

/-- What the read of a further word raises inside a Notes block, the block raises (R191). -/
theorem parseNotes_unread_after (h : Ahead ((c :: xs).flatMap InkedWord.frames ++ fs) s) (hle : xs.length ≤ c.w.toNat)
    (hl : ∀ x ∈ xs, legalContent x.w) (hx : Raises k info s.status (readBlockWord (notesAfter c xs s))) :
    Raises k info s.status (parseNotes s) := by
  rw [parseNotes_after h (Nat.add_sub_cancel' hle).symm hl]
  exact blockTail_unread hx

/-- What the read of a further word raises inside a Bars block, the block raises (R191). -/
theorem parseBars_unread_after {ns : List Word} (h : Ahead ((c :: xs).flatMap InkedWord.frames ++ fs) s)
    (hs : NotesHeld ns s) (hgap : 0 < c.blanks.length) (hle : xs.length ≤ c.w.toNat)
    (hok : ∀ x ∈ xs, x.w = Config.sep ∨ x.w.toNat < ns.length)
    (hx : Raises k info s.status (readBlockWord (barsAfter ns c xs s))) : Raises k info s.status (parseBars s) := by
  rw [parseBars_after h hs hgap (Nat.add_sub_cancel' hle).symm hok]
  exact blockTail_unread hx

end

end Sys2Proof.Machine

/-! SUPPORT. The statements about the block operations. -/

namespace Sys2Proof.Proofs

open Sys2Proof.Machine

/-- Settles O28: word by word to the checksum word, which closes the block. -/
theorem notesBlockIsParsed : Obligations.NotesBlockIsParsed := by
  intro s b rest hr hrun hseq hc hg ht hb ws outWords leader written t
  have hdue : NotesDue s := ⟨hr, hrun, hseq, hc⟩
  have hparsed : exec .parseNotesBlock s = .next t := by
    rw [hdue.exec_parseNotesBlock, parseNotes_of_notesOk ⟨hc, ht⟩ hg hb]
    have hev : t.ev = s.ev ++ (leader ++ notesEvents s.voice (override s) b) := List.append_assoc _ _ _
    exact congrArg (fun e => (.next { t with ev := e } : Out)) hev.symm
  exact ⟨hparsed, fun hm => (exec_parseTempoSubstitution hr hm).trans hparsed⟩

/-- Settles O29: word by word to the checksum word, which closes the block; then the peek. -/
theorem barsBlockIsParsed : Obligations.BarsBlockIsParsed := by
  intro s ns b bl rest hr hrun hseq hvalid hc hg hsmall hcount hcells ht hb hbl hrest ks written
  have hdue : BarsDue s := ⟨hr, hrun, hseq, hvalid, hc⟩
  have hpeek : countBlanks (bl ++ rest) = (!rest.isEmpty, bl.length) := by
    rw [countBlanks_append hbl]
    rcases hrest with rfl | ⟨f, r, rfl, hf⟩
    · simp [countBlanks]
    · simp [countBlanks, hf]
  rw [hdue.exec_parseBarsBlock, parseBars_of_barsOk ⟨hc, ht⟩ hg ⟨hsmall, hcount, hcells⟩ hb, hpeek]
  rfl

/-- Settles O30: the words before the illegal one are read and taken. -/
theorem illegalArticulationIsRaised : Obligations.IllegalArticulationIsRaised := by
  intro s c x xs rest hr hout hrun hseq hc hg ht hlt hl hx
  have hdue : NotesDue s := ⟨hr, hrun, hseq, hc⟩
  have ha := ahead_of_concat (xs := c :: xs) hc ht
  obtain ⟨n, hn⟩ : ∃ n, c.w.toNat = xs.length + (n + 1) := ⟨c.w.toNat - xs.length - 1, by omega⟩
  refine hdue.raises hout ?_
  rw [parseNotes_after ha hn hl]
  exact blockTail_raises (fresh_notesAfter ha).toAhead (takeNotesContent_raises hx _ _)

/-- Settles O32: the gap that a count word is read with is the blank frames before it, here none. -/
theorem missingNotesBarsGapIsRaised : Obligations.MissingNotesBarsGapIsRaised := by
  intro s c rest hr hout hrun hseq hvalid hc hg hblanks ht
  have hdue : BarsDue s := ⟨hr, hrun, hseq, hvalid, hc⟩
  have hgap : s.gap + c.blanks.length = 0 := by rw [hg, hblanks]; rfl
  refine hdue.raises hout ?_
  rw [parseBars_count ⟨hc, ht⟩, hgap]
  exact (takeBarsCount_raises c.w s.widx (takeWord c (beginBars s))).bind _

/-- Settles O33: the words before the index out of range are read and passed through. -/
theorem indexOutOfRangeIsRaised : Obligations.IndexOutOfRangeIsRaised := by
  intro s ns c x xs rest hr hout hrun hseq hvalid hc hg hsmall hcount hcells hgap ht hlt hok hsep hx
  have hdue : BarsDue s := ⟨hr, hrun, hseq, hvalid, hc⟩
  have hs : NotesHeld ns s := ⟨hsmall, hcount, hcells⟩
  have hheld : NotesHeld ns (takeWord x (barsAfter ns c xs s)) := ⟨hs.small, hs.count, hs.cells⟩
  have ha := ahead_of_concat (xs := c :: xs) hc ht
  obtain ⟨n, hn⟩ : ∃ n, c.w.toNat = xs.length + (n + 1) := ⟨c.w.toNat - xs.length - 1, by omega⟩
  refine hdue.raises hout ?_
  rw [parseBars_after ha hs hgap hn hok]
  exact blockTail_raises (fresh_barsAfter ha ns).toAhead (hheld.takeBarsContent_raises hsep hx _)

/-- Settles O34: where only blank frames are left the next read ends the block, at whichever word. -/
theorem endInsideABlockIsRaised : Obligations.EndInsideABlockIsRaised := by
  intro s ns c xs bs hr hout hrun hc hg
  refine ⟨fun hseq ht => ?_, fun hseq ht hle hl => ?_, fun hseq hvalid ht => ?_,
    fun hseq hvalid hsmall hcount hcells hgap ht hle hok => ?_⟩
  · have hread := readBlockWord_end (ahead_beginNotes ⟨hc, ht⟩) hg
    exact NotesDue.raises ⟨hr, hrun, hseq, hc⟩ hout (parseNotes_unread hread)
  · have hafter := fresh_notesAfter (c := c) (xs := xs) ⟨hc, ht⟩
    have hread := readBlockWord_end hafter.toAhead hafter.noGap
    exact NotesDue.raises ⟨hr, hrun, hseq, hc⟩ hout (parseNotes_unread_after ⟨hc, ht⟩ hle hl hread)
  · have hread := readBlockWord_end (ahead_beginBars ⟨hc, ht⟩) hg
    exact BarsDue.raises ⟨hr, hrun, hseq, hvalid, hc⟩ hout (parseBars_unread hread)
  · have hafter := fresh_barsAfter (c := c) (xs := xs) ⟨hc, ht⟩ ns
    have hread := readBlockWord_end hafter.toAhead hafter.noGap
    exact BarsDue.raises ⟨hr, hrun, hseq, hvalid, hc⟩ hout
      (parseBars_unread_after ⟨hc, ht⟩ ⟨hsmall, hcount, hcells⟩ hgap hle hok hread)

/-- Settles O35: a broken group ends the block at whichever word it stands for. -/
theorem malformedGroupInsideABlockIsRaised : Obligations.MalformedGroupInsideABlockIsRaised := by
  intro s ns c xs bl d0 d1 next sub hr hout hrun hc hn
  refine ⟨fun hseq ht => ?_, fun hseq ht hle hl => ?_, fun hseq hvalid ht => ?_,
    fun hseq hvalid hsmall hcount hcells hgap ht hle hok => ?_⟩
  · have hread := readBlockWord_broken (ahead_beginNotes ⟨hc, ht⟩) hn
    exact NotesDue.raises ⟨hr, hrun, hseq, hc⟩ hout (parseNotes_unread hread)
  · have hread := readBlockWord_broken (fresh_notesAfter (c := c) (xs := xs) ⟨hc, ht⟩).toAhead hn
    exact NotesDue.raises ⟨hr, hrun, hseq, hc⟩ hout (parseNotes_unread_after ⟨hc, ht⟩ hle hl hread)
  · have hread := readBlockWord_broken (ahead_beginBars ⟨hc, ht⟩) hn
    exact BarsDue.raises ⟨hr, hrun, hseq, hvalid, hc⟩ hout (parseBars_unread hread)
  · have hread := readBlockWord_broken (fresh_barsAfter (c := c) (xs := xs) ⟨hc, ht⟩ ns).toAhead hn
    exact BarsDue.raises ⟨hr, hrun, hseq, hvalid, hc⟩ hout
      (parseBars_unread_after ⟨hc, ht⟩ ⟨hsmall, hcount, hcells⟩ hgap hle hok hread)

/-- Settles O36: the bar in the cells of `NOTES` is the bar in the list of its words. -/
theorem barSliceOperation : Obligations.BarSliceOperation := by
  intro s ns k hr hsmall hcount hcells
  have hs : NotesHeld ns (drive s) := ⟨hsmall, hcount, hcells⟩
  rw [exec, execBarSlice, acceptUnit_of_ready _ hr.1 hr.2, hs.toNat_count]
  refine ⟨fun hk => ?_, fun hk => require_of_not _ _ (Nat.not_lt.2 hk)⟩
  rw [require_of _ _ hk, hs.barSlice_eq hk]
  rfl

/-- Settles O50: the first precondition that is broken refuses. -/
theorem blockOperationsKeepTheirPreconditions : Obligations.BlockOperationsKeepTheirPreconditions := by
  intro s hr
  refine ⟨fun i hi => ?_, fun hm => ?_, fun hrun => ?_, fun hrun hseq => ?_, fun hrun hseq hvalid => ?_,
    fun hrun hseq hvalid hc => ?_⟩
  · have hexec : exec i s = exec .parseNotesBlock s := by
      rcases hi with rfl | ⟨rfl, hm⟩
      · rfl
      · exact exec_parseTempoSubstitution hr hm
    rw [hexec, exec, execParseNotesBlock, accept_of_ready _ hr.1 hr.2]
    refine ⟨fun hrun => ?_, fun hrun h1 h2 => ?_, fun hrun hseq hc => ?_⟩
    · exact require_of_not _ _ (by simp [hrun])
    · rw [require_of _ _ hrun]
      exact require_of_not _ _ (by simp [h1, h2])
    · rw [require_of _ _ hrun, require_of _ _ hseq]
      exact require_of_not _ _ hc
  · rw [exec, execParseTempoSubstitution, accept_of_ready _ hr.1 hr.2]
    exact require_of_not _ _ (by simp [hm])
  all_goals rw [exec, execParseBarsBlock, accept_of_ready _ hr.1 hr.2]
  · exact require_of_not _ _ (by simp [hrun])
  · rw [require_of _ _ hrun]
    exact require_of_not _ _ hseq
  · rw [require_of _ _ hrun, require_of _ _ hseq]
    exact require_of_not _ _ (by simp [hvalid])
  · rw [require_of _ _ hrun, require_of _ _ hseq, require_of _ _ hvalid]
    exact require_of_not _ _ hc

end Sys2Proof.Proofs

/-! SUPPORT. The words of a block as items of the tape, at their positions (R94, R192 to R195; log 21). -/

namespace Sys2Proof.Machine

variable {s : State}

/-! ### Positions -/

section
variable (hrun : s.status.running = true)
include hrun

/-- Inside a Notes block a content word is due until the count is reached, then the checksum word (R94). -/
theorem position_of_midNotes (hm : midNotes s) :
    position s = if s.idx < s.count.toNat then some .notesContent else some .notesChecksum := by
  simp only [position, hrun, hm.1, hm.2, if_true]

/-- Inside a Bars block too. -/
theorem position_of_expectBarsBlock (hseq : s.seq = .expectBarsBlock) :
    position s = if s.idx < s.count.toNat then some .barsContent else some .barsChecksum := by
  simp only [position, hrun, hseq, if_true]

end

/-! ### Items -/

section
variable (hr : Ready s) (hrun : s.status.running = true)
include hr hrun

/-- A separator, a tempo word or a note word where content of a Notes block is due (R193). -/
theorem exec_notesContent {i : Instr} {w : Word} (hi : contentOf i = some w) (hp : position s = some .notesContent)
    (hk : ∀ k, i ≠ .index k) :
    exec i s = finish (fun _ => Result.none) (takeNotesContent w (lastIndex s) s) := by
  have hword : contentWord w s = finish (fun _ => Result.none) (takeNotesContent w (lastIndex s) s) := by
    rw [contentWord, hp]
  cases i with
  | sep =>
    cases hi
    rw [exec, execSep, accept_of_ready _ hr.1 hr.2, require_of _ _ hrun, hword]
  | tempo t =>
    cases hi
    rw [exec, execTempo, accept_of_ready _ hr.1 hr.2, require_of _ _ hrun, require_of _ _ hp, hword]
  | note hi' tr am q pl d =>
    cases hi
    rw [exec, execNote, accept_of_ready _ hr.1 hr.2, require_of _ _ hrun, require_of _ _ hp, hword]
  | index k => exact absurd rfl (hk k)
  | _ => cases hi

/-- A separator or an index word where content of a Bars block is due (R195). -/
theorem exec_barsContent {i : Instr} {k : Word} (hi : (i = .sep ∧ k = Config.sep) ∨ i = .index k)
    (hp : position s = some .barsContent) :
    exec i s = finish (fun _ => Result.none) (takeBarsContent k (lastIndex s) s) := by
  have hword : contentWord k s = finish (fun _ => Result.none) (takeBarsContent k (lastIndex s) s) := by
    rw [contentWord, hp]
  rcases hi with ⟨rfl, rfl⟩ | rfl
  · rw [exec, execSep, accept_of_ready _ hr.1 hr.2, require_of _ _ hrun, hword]
  · rw [exec, execIndex, accept_of_ready _ hr.1 hr.2, require_of _ _ hrun, require_of _ _ hp, hword]

/-- A count word where `SEQ` lets a Notes block begin (R192; log 31). -/
theorem exec_count_notes (hseq : s.seq = .expectLeaderGap ∨ s.seq = .expectNotesBlock) (n : Word) :
    exec (.count n) s = .next (setResult .none (openNotes n s.wordGap (beginNotes s))) := by
  rw [exec, execCount, accept_of_ready _ hr.1 hr.2, require_of _ _ hrun, if_pos hseq, takeNotesCount_eq]

/-- A count word where a Bars block is due (R194). -/
theorem exec_count_bars (hseq : s.seq = .expectGap1) (hvalid : s.notesValid = true) (n : Word) :
    exec (.count n) s =
      finish (fun _ => Result.none) (takeBarsCount n s.wordGap (lastIndex s) (beginBars s)) := by
  rw [exec, execCount, accept_of_ready _ hr.1 hr.2, require_of _ _ hrun, if_neg (by simp [hseq]), if_pos hseq,
    require_of _ _ hvalid]

theorem exec_checksum_notes (hp : position s = some .notesChecksum) (c : Word) :
    exec (.checksum c) s = finish (fun _ => Result.none) (takeNotesChecksum c (lastIndex s) s) := by
  rw [exec, execChecksum, accept_of_ready _ hr.1 hr.2, require_of _ _ hrun, hp]

theorem exec_checksum_bars (hp : position s = some .barsChecksum) (c : Word) :
    exec (.checksum c) s = finish (fun p => Result.peek p.1 p.2) (takeBarsChecksum c (lastIndex s) s) := by
  rw [exec, execChecksum, accept_of_ready _ hr.1 hr.2, require_of _ _ hrun, hp]

end

end Sys2Proof.Machine

/-! SUPPORT. The statements about the words of the tape as instructions. -/

namespace Sys2Proof.Proofs

open Sys2Proof.Machine

/-- Settles O37: at its position an item is taken as the block operation takes its word. -/
theorem notesContentItems : Obligations.NotesContentItems := by
  intro s i w hr hout hrun hseq hblk hlt hi
  have hp : position s = some .notesContent := by rw [position_of_midNotes hrun ⟨hseq, hblk⟩, if_pos hlt]
  obtain ⟨hcontent, hk⟩ : contentOf i = some w ∧ ∀ k, i ≠ .index k := by
    rcases hi with ⟨rfl, rfl⟩ | ⟨t, rfl, rfl⟩ | ⟨h, tr, am, q, pl, d, rfl, _, rfl⟩
    all_goals exact ⟨rfl, nofun⟩
  rw [exec_notesContent hr hrun hcontent hp hk]
  refine ⟨fun hl => ?_, fun hl => ?_⟩
  · rw [takeNotesContent_of_legal hl]
    rfl
  · rw [← hblk]
    exact (takeNotesContent_raises hl (lastIndex s) s).finish _ hr.2 hout

/-- Settles O38: at its position an item is taken as the block operation takes its word. -/
theorem barsContentItems : Obligations.BarsContentItems := by
  intro s ns i k hr hout hrun hseq hlt hsmall hcount hcells hi
  have hs : NotesHeld ns s := ⟨hsmall, hcount, hcells⟩
  have hp : position s = some .barsContent := by rw [position_of_expectBarsBlock hrun hseq, if_pos hlt]
  rw [exec_barsContent hr hrun (hi.imp_right And.left) hp]
  refine ⟨fun hok => ?_, fun hsep hk => ?_⟩
  · rw [hs.takeBarsContent_eq hok]
    rfl
  · exact (hs.takeBarsContent_raises hsep hk (lastIndex s)).finish _ hr.2 hout

/-- Settles O39: the gap before the word stands in `wordGap`, and the rest is as in the block operations. -/
theorem countItemBeginsABlock : Obligations.CountItemBeginsABlock := by
  intro s n hr hout hrun
  refine ⟨fun hseq => ?_, fun hseq hvalid hgap => ?_, fun hseq hvalid hgap => ?_⟩
  · rw [exec_count_notes hr hrun hseq]
    intro leader written
    have hev : s.ev ++ leader ++ [Event.count s.voice .notes n] = s.ev ++ (leader ++ [.count s.voice .notes n]) :=
      List.append_assoc _ _ _
    rw [hev]
    rfl
  · rw [exec_count_bars hr hrun hseq hvalid, takeBarsCount_of_gap hgap]
    rfl
  · rw [exec_count_bars hr hrun hseq hvalid, hgap]
    exact (takeBarsCount_raises n (lastIndex s) (beginBars s)).finish _ hr.2 hout

/-- Settles O40: the word is verified against `sum_in`, and the rest is as in the block operations. -/
theorem checksumItemEndsABlock : Obligations.ChecksumItemEndsABlock := by
  intro s c hr hout hrun hle
  have hnotes : midNotes s → position s = some .notesChecksum := fun hm => by
    rw [position_of_midNotes hrun hm, if_neg (Nat.not_lt.2 hle)]
  have hbars : s.seq = .expectBarsBlock → position s = some .barsChecksum := fun hseq => by
    rw [position_of_expectBarsBlock hrun hseq, if_neg (Nat.not_lt.2 hle)]
  refine ⟨fun hseq hblk hc => ?_, fun hseq hc => ?_, fun hseq hc => ?_⟩
  · rw [exec_checksum_notes hr hrun (hnotes ⟨hseq, hblk⟩), takeNotesChecksum_of_eq hc]
    subst hc
    rfl
  · refine ⟨(fuPeek s).1, (fuPeek s).2, ?_, ?_⟩
    · rw [exec_peekGap (s := { s with fcnt := 0#2 }) hr rfl, drive_of_running (s := { s with fcnt := 0#2 }) hrun]
      rfl
    · rw [exec_checksum_bars hr hrun (hbars hseq), takeBarsChecksum_of_eq hc]
      subst hc
      rfl
  · rcases hseq with hm | hseq
    · rw [exec_checksum_notes hr hrun (hnotes hm)]
      exact (takeNotesChecksum_raises hc (lastIndex s)).finish _ hr.2 hout
    · rw [exec_checksum_bars hr hrun (hbars hseq)]
      exact (takeBarsChecksum_raises hc (lastIndex s)).finish _ hr.2 hout

end Sys2Proof.Proofs

/-! SUPPORT. TE's own operations: what they append, and their refusal outside `TWEAK` mode. -/

namespace Sys2Proof.Machine

/-- The three frames of a word bit by bit: bit 7 over each group of six, high group first (R93, R221). -/
theorem wordFrames_eq (w : Word) :
    wordFrames w = [0x80#8 ||| (w.extractLsb' 12 6).setWidth 8, 0x80#8 ||| (w.extractLsb' 6 6).setWidth 8,
      0x80#8 ||| (w.extractLsb' 0 6).setWidth 8] := rfl

theorem putWord_eq (w : Word) (s : State) :
    putWord w s = { s with out := s.out ++ wordFrames w, opos := s.opos + 3 } := rfl

theorem putGap_eq (n : Nat) (s : State) :
    putGap n s = { s with out := s.out ++ List.replicate n 0#8, opos := s.opos + n } := by
  rw [putGap, appendFrames, List.length_replicate]

section
variable {s : State} (hr : Ready s) (hm : s.mode ≠ .tweak)
include hr hm

/-- A direct `writeWord` breaks the precondition on the mode (R225). -/
theorem exec_writeWord_refused (w : Word) : exec (.writeWord w) s = .refused .decodeMode := by
  rw [exec, execWriteWord, acceptUnit_of_ready _ hr.1 hr.2]
  exact require_of_not _ _ hm

/-- A direct `writeGap` breaks the precondition on the mode (R225). -/
theorem exec_writeGap_refused (n : Nat) : exec (.writeGap n) s = .refused .decodeMode := by
  rw [exec, execWriteGap, acceptUnit_of_ready _ hr.1 hr.2]
  exact require_of_not _ _ hm

end

end Sys2Proof.Machine

/-! SUPPORT. The statement about the frame packer. -/

namespace Sys2Proof.Proofs

open Sys2Proof.Machine

/-- Settles O27: the mode decides between TE's append and the refusal. -/
theorem packerAppendsInTweakModeOnly : Obligations.PackerAppendsInTweakModeOnly := by
  intro s w n hr
  refine ⟨fun htweak => ⟨?_, ?_⟩, fun hdecode => ?_⟩
  · rw [exec_writeWord w hr htweak, putWord_eq, wordFrames_eq]
    rfl
  · rw [exec_writeGap n hr htweak, putGap_eq]
    rfl
  · have hm : s.mode ≠ .tweak := by simp [hdecode]
    exact ⟨exec_writeWord_refused hr hm w, exec_writeGap_refused hr hm n⟩

end Sys2Proof.Proofs

/-! SUPPORT. A run over voices that raise nothing: voice by voice, then the end of the tape or more data than a tape may
hold (R232 to R238). -/

namespace Sys2Proof.Machine

variable {s : State} {n : Nat} {x v : InkedVoice} {init : List InkedVoice} {fs : List Frame}

theorem InkedBlock.length_all (b : InkedBlock) : b.all.length = b.words.length + 2 := by
  simp [InkedBlock.all, b.length_words]

theorem InkedVoice.wordCount_eq (x : InkedVoice) :
    x.wordCount = x.notes.words.length + 2 + (x.bars.words.length + 2) := by
  rw [InkedVoice.wordCount, x.notes.length_all, x.bars.length_all]

theorem InkedVoice.length_frames (x : InkedVoice) :
    x.frames.length = x.notes.frames.length + x.bars.frames.length := List.length_append

/-! ### The frames after a voice -/

theorem countBlanks_blankFrames (bs : List (BitVec 7)) : countBlanks (blankFrames bs) = (false, bs.length) := by
  have h := countBlanks_append (fun _ => not_isBinary_of_mem_blankFrames (bs := bs)) []
  rw [List.append_nil] at h
  rw [h, length_blankFrames]
  simp [countBlanks]

theorem countBlanks_binary {bl rest : List Frame} {f : Frame} (hbl : ∀ b ∈ bl, isBinary b = false)
    (hf : isBinary f = true) : countBlanks (bl ++ f :: rest) = (true, bl.length) := by
  rw [countBlanks_append hbl]
  simp [countBlanks, hf]

/-- Before voices the peek finds the first word of the first, and the gap before it (R136). -/
theorem countBlanks_voices (init : List InkedVoice) (v : InkedVoice) (fs : List Frame) :
    countBlanks ((init ++ [v]).flatMap InkedVoice.frames ++ fs) = (true, leaderGap (init ++ [v])) := by
  obtain ⟨y, ys, hy⟩ : ∃ y ys, init ++ [v] = y :: ys := by cases init <;> exact ⟨_, _, rfl⟩
  rw [hy, List.flatMap_cons, InkedVoice.frames, InkedBlock.frames_eq, List.flatMap_cons, InkedWord.frames]
  simp only [List.append_assoc, List.cons_append]
  rw [countBlanks_binary (fun _ => not_isBinary_of_mem_blankFrames) (isBinary_binaryFrame _ _), length_blankFrames]
  rfl

/-! ### One voice -/

/-- A voice that raises nothing, read and reported whole (R192, R194). -/
def voiceParsed (x : InkedVoice) (s : State) : State := barsParsed x.notes.words x.bars (notesParsed x.notes s)

/-- The registers that a voice read from `gap` = 0 leaves, but for `EV` and `OUT` (R192, R194). -/
def voiceRegs (x : InkedVoice) (s : State) : State := barsRegs x.bars (notesRegs x.notes s)

/-- The record of the leader gap, before the first voice only (R233). -/
def leadEvents (q : Seq) (g : Nat) : List Event := if q = .expectLeaderGap then [.gap .leader g] else []

/-- The frames of the leader gap, before the first voice only (R233). -/
def leadFrames (q : Seq) (g : Nat) : List Frame := if q = .expectLeaderGap then gapFrames g else []

/-- The voice reported and written, its leader gap included if it is the first (R47, R241). -/
theorem voiceParsed_eq_report (x : InkedVoice) (s : State) :
    voiceParsed x s =
      report (leadEvents s.seq x.notes.gap ++ voiceEvents s.voice (override s) x)
        (leadFrames s.seq x.notes.gap ++ voiceOutput (override s) x) (voiceRegs x s) := by
  have h := report_report
    (leadEvents s.seq x.notes.gap ++ notesEvents s.voice (override s) x.notes)
    (barsEvents s.voice x.notes.words x.bars)
    (leadFrames s.seq x.notes.gap ++ blockFrames (x.notes.rewritten (override s)))
    (gapFrames x.bars.gap ++ blockFrames x.bars.words) (voiceRegs x s)
  rw [List.append_assoc, List.append_assoc, ← List.append_assoc (blockFrames _)] at h
  exact h

/-- After a Notes block `NOTES` holds its words (R192). -/
theorem notesHeld_notesParsed {b : InkedBlock} (hb : b.counted) (s : State) : NotesHeld b.words (notesParsed b s) where
  small := b.length_words ▸ hb.1
  count := hb.2.trans (by rw [b.length_words])
  cells := rfl

section
variable (h : Ahead (x.frames ++ fs) s)
include h

theorem ahead_notesParsed : Ahead (x.bars.frames ++ fs) (notesParsed x.notes s) := by
  obtain ⟨hc, hf⟩ := h
  rw [InkedVoice.frames, List.append_assoc] at hf
  exact ⟨hc, (restOfTape_advance hf).trans List.drop_left⟩

theorem ahead_voiceParsed : Ahead fs (voiceParsed x s) := by
  have hn := ahead_notesParsed h
  exact ⟨hn.between, (restOfTape_advance hn.frames).trans List.drop_left⟩

/-- One pass of the loop over a voice that raises nothing (R232). -/
theorem runVoice_of_ok (hg : s.gap = 0) (hx : x.ok) : runVoice s = afterBars (countBlanks fs) (voiceParsed x s) := by
  obtain ⟨hnotes, hbars⟩ := hx
  have hn : Ahead (x.notes.frames ++ (x.bars.frames ++ fs)) s := by
    rw [← List.append_assoc]
    exact h
  rw [← x.notes.length_words] at hbars
  rw [runVoice, parseNotes_of_notesOk hn hg hnotes, bind_done,
    parseBars_of_barsOk (ahead_notesParsed h) hg (notesHeld_notesParsed hnotes.1 s) hbars, bind_done]
  rfl

end

/-! ### From voice to voice -/

/-- The run stands before voice `n`, with these frames to come (R232). -/
structure VoiceDue (n : Nat) (fs : List Frame) (s : State) : Prop extends Ahead fs s where
  noGap : s.gap = 0
  voice : s.voice = BitVec.ofNat 3 n

theorem ofNat_ne_lastVoice (h : n ≤ 3) : BitVec.ofNat 3 n ≠ lastVoice := by
  interval_cases n <;> decide

theorem nextVoice_eq_report (g : Nat) (s : State) :
    nextVoice g s = report [.gap .interVoice g] (gapFrames s.gapLen)
      { s with voice := s.voice + 1#3, seq := .expectNotesBlock } := by
  rw [nextVoice, copyGap_emit]
  rfl

/-- After a voice that raises nothing and the gap after it, where the next voice is read (R232, R235). -/
def voicePassed (g : Nat) (x : InkedVoice) (s : State) : State := nextVoice g (voiceParsed x s)

theorem voicePassed_eq_report (g : Nat) (x : InkedVoice) (s : State) :
    voicePassed g x s =
      report (leadEvents s.seq x.notes.gap ++ voiceEvents s.voice (override s) x ++ [.gap .interVoice g])
        (leadFrames s.seq x.notes.gap ++ voiceOutput (override s) x ++ gapFrames s.gapLen)
        { voiceRegs x s with voice := s.voice + 1#3, seq := .expectNotesBlock } := by
  rw [voicePassed, nextVoice_eq_report, voiceParsed_eq_report]
  exact report_report _ _ _ _ { voiceRegs x s with voice := s.voice + 1#3, seq := .expectNotesBlock }

theorem VoiceDue.voicePassed (h : VoiceDue n (x.frames ++ fs) s) (g : Nat) :
    VoiceDue (n + 1) fs (voicePassed g x s) := by
  obtain ⟨ha, hg, hv⟩ := h
  have hnext : s.voice + 1#3 = BitVec.ofNat 3 (n + 1) := by rw [hv, BitVec.ofNat_add]
  obtain ⟨hc, hf⟩ := ahead_voiceParsed ha
  rw [Machine.voicePassed, nextVoice_eq_report]
  exact ⟨⟨hc, hf⟩, hg, hnext⟩

/-- Before the last voice, a voice followed by a word is followed by another pass (R232). -/
theorem VoiceDue.runVoices_voice {g k : Nat} (h : VoiceDue n (x.frames ++ fs) s) (hn : n ≤ 3) (hx : x.ok)
    (hmore : countBlanks fs = (true, g)) : runVoices (k + 1) s = runVoices k (Machine.voicePassed g x s) := by
  have hlast : s.voice ≠ lastVoice := h.voice ▸ ofNat_ne_lastVoice hn
  have hafter : afterBars (countBlanks fs) (voiceParsed x s) = .done none (Machine.voicePassed g x s) := by
    rw [hmore, afterBars, if_pos rfl]
    exact if_neg hlast
  rw [runVoices, runVoice_of_ok h.toAhead h.noGap hx, hafter, bind_done]

/-- After several voices and the gaps after them, where `v` is read (R232). -/
def voicesPassed : List InkedVoice → InkedVoice → State → State
  | [], _, s => s
  | x :: init, v, s => voicesPassed init v (voicePassed (leaderGap (init ++ [v])) x s)

theorem VoiceDue.cons (h : VoiceDue n ((x :: init ++ [v]).flatMap InkedVoice.frames ++ fs) s) :
    VoiceDue n (x.frames ++ ((init ++ [v]).flatMap InkedVoice.frames ++ fs)) s := by
  rwa [← List.append_assoc]

theorem VoiceDue.voicesPassed (h : VoiceDue n ((init ++ [v]).flatMap InkedVoice.frames ++ fs) s) :
    VoiceDue (n + init.length) (v.frames ++ fs) (voicesPassed init v s) := by
  induction init generalizing n s with
  | nil => rwa [List.nil_append, List.flatMap_singleton] at h
  | cons x init ih =>
    rw [List.length_cons, ← Nat.add_assoc, Nat.add_right_comm]
    exact ih (h.cons.voicePassed _)

/-- A run passes the voices before the last one (R232). -/
theorem VoiceDue.runVoices_init {k : Nat} (h : VoiceDue n ((init ++ [v]).flatMap InkedVoice.frames ++ fs) s)
    (hn : n + init.length ≤ 4) (hok : ∀ x ∈ init, x.ok) :
    runVoices (init.length + k) s = runVoices k (Machine.voicesPassed init v s) := by
  induction init generalizing n s with
  | nil => rw [List.length_nil, Nat.zero_add, Machine.voicesPassed]
  | cons x init ih =>
    obtain ⟨hx, hok⟩ := List.forall_mem_cons.1 hok
    rw [List.length_cons] at hn ⊢
    rw [Nat.add_right_comm, h.cons.runVoices_voice (by omega) hx (countBlanks_voices init v fs),
      ih (h.cons.voicePassed _) (by omega) hok, Machine.voicesPassed]

/-! ### What a run reports and writes -/

theorem voicesEvents_cons (o : Option Tempo15) (final n : Nat) (x : InkedVoice) (init : List InkedVoice)
    (v : InkedVoice) :
    voicesEvents o final n (x :: init ++ [v]) =
      voiceEvents (BitVec.ofNat 3 n) o x ++
        Event.gap .interVoice (leaderGap (init ++ [v])) :: voicesEvents o final (n + 1) (init ++ [v]) := by
  cases init <;> rfl

theorem voicesOutput_cons (o : Option Tempo15) (gapLen final : Nat) (x : InkedVoice) (init : List InkedVoice)
    (v : InkedVoice) :
    voicesOutput o gapLen final (x :: init ++ [v]) =
      voiceOutput o x ++ gapFrames gapLen ++ voicesOutput o gapLen final (init ++ [v]) := by
  cases init <;> rfl

/-- The registers after the last Bars block of a run, but for `EV` and `OUT` (R232). -/
def runRegs (n : Nat) (init : List InkedVoice) (v : InkedVoice) (s : State) : State :=
  { voiceRegs v s with
    ipos := s.ipos + ((init ++ [v]).flatMap InkedVoice.frames).length,
    widx := s.widx + ((init ++ [v]).map InkedVoice.wordCount).sum, voice := BitVec.ofNat 3 (n + init.length) }

theorem runRegs_nil (hs : s.voice = BitVec.ofNat 3 n) : runRegs n [] v s = voiceRegs v s := by
  have hpos : s.ipos + v.notes.frames.length + v.bars.frames.length =
      s.ipos + (([] ++ [v]).flatMap InkedVoice.frames).length := by
    rw [List.nil_append, List.flatMap_singleton, v.length_frames, Nat.add_assoc]
  have hwidx : s.widx + v.notes.words.length + 2 + (v.bars.words.length + 2) =
      s.widx + (([] ++ [v]).map InkedVoice.wordCount).sum := by
    rw [List.nil_append, List.map_singleton, List.sum_singleton, v.wordCount_eq]
    omega
  have hvoice : BitVec.ofNat 3 (n + ([] : List InkedVoice).length) = s.voice := hs.symm
  rw [runRegs, hvoice, ← hpos, ← hwidx]
  rfl

theorem runRegs_cons (n : Nat) (x : InkedVoice) (init : List InkedVoice) (v : InkedVoice) (s : State) :
    runRegs (n + 1) init v { voiceRegs x s with voice := s.voice + 1#3, seq := .expectNotesBlock } =
      runRegs n (x :: init) v s := by
  have hpos : s.ipos + x.notes.frames.length + x.bars.frames.length +
      ((init ++ [v]).flatMap InkedVoice.frames).length =
        s.ipos + ((x :: init ++ [v]).flatMap InkedVoice.frames).length := by
    rw [List.cons_append, List.flatMap_cons, List.length_append, x.length_frames]
    omega
  have hwidx : s.widx + x.notes.words.length + 2 + (x.bars.words.length + 2) +
      ((init ++ [v]).map InkedVoice.wordCount).sum =
        s.widx + ((x :: init ++ [v]).map InkedVoice.wordCount).sum := by
    rw [List.cons_append, List.map_cons, List.sum_cons, x.wordCount_eq]
    omega
  have hvoice : BitVec.ofNat 3 (n + 1 + init.length) = BitVec.ofNat 3 (n + (x :: init).length) := by
    rw [List.length_cons, Nat.add_right_comm, Nat.add_assoc]
  rw [runRegs, runRegs, ← hpos, ← hwidx, ← hvoice]
  rfl

/-- After the last Bars block of a run over voices that raise nothing, numbered from `n` on, and the final gap reported
and written (R232, R241). -/
def voicesRun (n : Nat) (init : List InkedVoice) (v : InkedVoice) (final : Nat) (s : State) : State :=
  report (leadEvents s.seq (leaderGap (init ++ [v])) ++ voicesEvents (override s) final n (init ++ [v]))
    (leadFrames s.seq (leaderGap (init ++ [v])) ++ voicesOutput (override s) s.gapLen final (init ++ [v]))
    (runRegs n init v s)

theorem voicesRun_nil (hs : s.voice = BitVec.ofNat 3 n) (v : InkedVoice) (final : Nat) :
    voicesRun n [] v final s = report [.gap .final final] (gapFrames final) (voiceParsed v s) := by
  rw [voiceParsed_eq_report, report_report, voicesRun, runRegs_nil hs]
  simp only [List.nil_append, voicesEvents, voicesOutput, ← hs, List.append_assoc]
  rfl

theorem voicesRun_cons (hs : s.voice = BitVec.ofNat 3 n) (x : InkedVoice) (init : List InkedVoice) (v : InkedVoice)
    (final : Nat) :
    voicesRun n (x :: init) v final s =
      voicesRun (n + 1) init v final (voicePassed (leaderGap (init ++ [v])) x s) := by
  symm
  calc voicesRun (n + 1) init v final (voicePassed (leaderGap (init ++ [v])) x s)
    _ = report (voicesEvents (override s) final (n + 1) (init ++ [v]))
          (voicesOutput (override s) s.gapLen final (init ++ [v]))
          (report (leadEvents s.seq x.notes.gap ++ voiceEvents s.voice (override s) x ++
              [.gap .interVoice (leaderGap (init ++ [v]))])
            (leadFrames s.seq x.notes.gap ++ voiceOutput (override s) x ++ gapFrames s.gapLen)
            (runRegs n (x :: init) v s)) := by
      rw [voicePassed_eq_report, ← runRegs_cons]
      rfl
    _ = voicesRun n (x :: init) v final s := by
      rw [report_report, voicesRun, voicesEvents_cons, voicesOutput_cons, ← hs]
      simp only [List.append_assoc, List.cons_append, List.nil_append]
      rfl

/-- The voices one after the other report and write what the whole tape does (R47, R241). -/
theorem VoiceDue.voicesRun_eq (h : VoiceDue n ((init ++ [v]).flatMap InkedVoice.frames ++ fs) s) (final : Nat) :
    voicesRun n init v final s =
      report [.gap .final final] (gapFrames final) (voiceParsed v (Machine.voicesPassed init v s)) := by
  induction init generalizing n s with
  | nil => exact voicesRun_nil h.voice v final
  | cons x init ih => rw [voicesRun_cons h.voice, ih (h.cons.voicePassed _), Machine.voicesPassed]

/-! ### The end of the run -/

/-- The end of a run after its last voice, the blank frames of the final gap still to come (R232, R236). -/
def tapeEnded (g : Nat) (s : State) : State :=
  setDone (emit (.ended s.voice s.widx (s.ipos + g) s.opos)
    { s with ipos := s.ipos + g, gap := s.gap + g, streamEnded := true, seq := .endOfTape })

theorem endOfTape_blanks {bs : List (BitVec 7)} (h : Ahead (blankFrames bs) s) (g : Nat) :
    endOfTape g s = .done (some s.voice) (tapeEnded bs.length (report [.gap .final g] (gapFrames g) s)) := by
  have hread := readFrames_blanks (fun _ => not_isBinary_of_mem_blankFrames (bs := bs)) [] h.between
  rw [List.append_nil, length_blankFrames, readFrames_end (s := passBlanks _ s) h.between] at hread
  rw [endOfTape, fuRead, h.frames, hread, bind_done, copyGap_emit]
  rfl

/-- A run over voices that raise nothing, with only the final gap after them (R232). -/
theorem VoiceDue.runVoices_of_ok {final : List (BitVec 7)} {k : Nat} (h : VoiceDue n (tapeFrames (init ++ [v]) final) s)
    (hn : n + init.length ≤ 4) (hok : ∀ x ∈ init ++ [v], x.ok) :
    runVoices (init.length + (k + 1)) s =
      .done (BitVec.ofNat 3 (n + init.length)) (tapeEnded final.length (voicesRun n init v final.length s)) := by
  have hlast := h.voicesPassed
  have hv := hok v (List.mem_append_right _ (List.mem_singleton_self v))
  have hafter : ∀ u, afterBars (countBlanks (blankFrames final)) u = endOfTape final.length u := fun u => by
    rw [countBlanks_blankFrames, afterBars]
    rfl
  rw [h.runVoices_init hn fun x hx => hok x (List.mem_append_left _ hx), h.voicesRun_eq, runVoices,
    runVoice_of_ok hlast.toAhead hlast.noGap hv, hafter, endOfTape_blanks (ahead_voiceParsed hlast.toAhead), bind_done]
  exact congrArg (Act.done · _) hlast.voice

theorem afterBars_trailing (g : Nat) (hv : s.voice = lastVoice) :
    afterBars (true, g) s =
      .raised (raise .unexpectedTrailingData { infoAt (some s.widx) s with gap := some g } s) := by
  rw [afterBars, if_pos rfl]
  exact if_pos hv

/-- A word after voice 4 ends the run (R237, R278). -/
theorem VoiceDue.runVoices_trailing {bl rest : List Frame} {f : Frame} {k : Nat}
    (h : VoiceDue n ((init ++ [v]).flatMap InkedVoice.frames ++ (bl ++ f :: rest)) s) (hn : n + init.length = 4)
    (hok : ∀ x ∈ init ++ [v], x.ok) (hbl : ∀ b ∈ bl, isBinary b = false) (hf : isBinary f = true) :
    Raises .unexpectedTrailingData
      { widx := some (s.widx + ((init ++ [v]).map InkedVoice.wordCount).sum), blk := some .bars,
        voice := some lastVoice, gap := some bl.length } s.status (runVoices (init.length + (k + 1)) s) := by
  have hlast := h.voicesPassed
  have hv := hok v (List.mem_append_right _ (List.mem_singleton_self v))
  have hvoice : (voiceParsed v (Machine.voicesPassed init v s)).voice = lastVoice := hlast.voice.trans (by rw [hn]; rfl)
  have hrun := h.voicesRun_eq 0
  have hwidx : (voiceParsed v (Machine.voicesPassed init v s)).widx =
      s.widx + ((init ++ [v]).map InkedVoice.wordCount).sum := (congrArg State.widx hrun).symm
  have hstatus : (voiceParsed v (Machine.voicesPassed init v s)).status = s.status := (congrArg State.status hrun).symm
  rw [h.runVoices_init hn.le fun x hx => hok x (List.mem_append_left _ hx), runVoices,
    runVoice_of_ok hlast.toAhead hlast.noGap hv, countBlanks_binary hbl hf, afterBars_trailing _ hvoice,
    ← hwidx, ← hvoice]
  exact ⟨voiceParsed v (Machine.voicesPassed init v s), rfl, hstatus⟩

end Sys2Proof.Machine

/-! SUPPORT. Runs from reset (R240, R241, R264): over voices that raise nothing, and with data after voice 4 (R237). -/

namespace Sys2Proof.Machine

variable {s : State} {v : InkedVoice} {init : List InkedVoice}

/-! ### The three ways to start a run -/

section
variable (hr : Ready s) (ha : atReset s)
include hr ha

theorem exec_start : exec .start s = startRun s := by
  rw [exec, execStart, accept_of_ready _ hr.1 hr.2, require_of _ _ ha]

theorem exec_runDecoder : exec .runDecoder s = startRun { s with mode := .decode } := by
  rw [exec, execRunDecoder, accept_of_ready _ hr.1 hr.2, require_of _ _ ha]

theorem exec_runTweak : exec .runTweak s = startRun { s with mode := .tweak } := by
  rw [exec, execRunTweak, accept_of_ready _ hr.1 hr.2, require_of _ _ ha]

end

/-- The configuration and the tape are no part of the reset values asked (R264). -/
theorem atReset.congr (h : atReset s) (m : Mode) (tape : List Frame) : atReset { s with mode := m, tape := tape } := by
  unfold atReset at h ⊢
  rw [h]

/-- From reset the run stands before voice 1, with the whole tape to come (R264). -/
theorem voiceDue_of_atReset (h : atReset s) : VoiceDue 1 s.tape (setRunning s) := by
  have hfcnt : s.fcnt = 0#2 := by rw [h]; rfl
  have hipos : s.ipos = 0 := by rw [h]; rfl
  have hgap : s.gap = 0 := by rw [h]; rfl
  have hvoice : s.voice = 1#3 := by rw [h]; rfl
  have hrest : s.tape.drop s.ipos = s.tape := by rw [hipos, List.drop_zero]
  exact ⟨⟨hfcnt, hrest⟩, hgap, hvoice⟩

/-! ### A tape that raises nothing -/

@[simp] theorem override_setRunning (s : State) : override (setRunning s) = override s := rfl

/-- What a run writes (R225, R241). -/
def runOutput (vs : List InkedVoice) (final : Nat) (s : State) : List Frame :=
  tweaked s.mode (tweakOutput (override s) s.gapLen final vs)

/-- `EV` after a run that has read this many frames and written this many (R47). -/
def runEvents (o : Option Tempo15) (vs : List InkedVoice) (final framesIn framesOut : Nat) : List Event :=
  Event.gap .leader (leaderGap vs) :: voicesEvents o final 1 vs ++
    [.ended (BitVec.ofNat 3 vs.length) (vs.map InkedVoice.wordCount).sum framesIn framesOut]

/-- A run from reset to the end of the tape (R232, R240, R241). -/
def ranToEnd (init : List InkedVoice) (v : InkedVoice) (final : Nat) (s : State) : State :=
  { s with
    ipos := s.tape.length, gap := final, widx := ((init ++ [v]).map InkedVoice.wordCount).sum,
    wordGap := v.bars.check.blanks.length, streamEnded := true, sumIn := blockChecksum v.bars.words,
    sumOut := blockChecksum (v.notes.words.map (substWord (override s))), blk := .bars, count := v.bars.count.w,
    idx := v.bars.content.length, notesCount := v.notes.count.w, notes := cellsFrom 0 v.notes.words,
    out := runOutput (init ++ [v]) final s, opos := (runOutput (init ++ [v]) final s).length,
    voice := BitVec.ofNat 3 (init ++ [v]).length, seq := .endOfTape,
    ev := runEvents (override s) (init ++ [v]) final s.tape.length (runOutput (init ++ [v]) final s).length,
    status := { running := false, done := true, outValid := decide (s.mode = .tweak) },
    result := .runDone (BitVec.ofNat 3 (init ++ [v]).length) }

theorem tapeEnded_of_atReset {final : List (BitVec 7)} (ha : atReset s)
    (ht : s.tape = tapeFrames (init ++ [v]) final) :
    setResult (.runDone (BitVec.ofNat 3 (1 + init.length)))
        (tapeEnded final.length (voicesRun 1 init v final.length (setRunning s))) =
      ranToEnd init v final.length s := by
  have hpos : 0 + ((init ++ [v]).flatMap InkedVoice.frames).length + final.length = s.tape.length := by
    rw [ht, tapeFrames, List.length_append, length_blankFrames, Nat.zero_add]
  have hvoice : 1 + init.length = (init ++ [v]).length := by rw [List.length_append, Nat.add_comm]; rfl
  rw [hvoice, ranToEnd, ← hpos, ← v.bars.length_words, voicesRun, runRegs, hvoice, ha]
  simp [runEvents, runOutput, tapeEnded, report, emit, leadEvents, leadFrames, setDone, setResult, tweakOutput,
    voiceRegs, barsRegs, notesRegs, passBlock, InkedBlock.rewritten, State.reset]

/-- From reset, a run over one to four voices that raise nothing comes to the end of the tape (R232, R264). -/
theorem startRun_of_ok {final : List (BitVec 7)} (ha : atReset s) (ht : s.tape = tapeFrames (init ++ [v]) final)
    (hn : init.length ≤ 3) (hok : ∀ x ∈ init ++ [v], x.ok) : startRun s = .next (ranToEnd init v final.length s) := by
  have hdue := voiceDue_of_atReset ha
  have hpasses : Config.voices = init.length + (3 - init.length + 1) := by rw [Config.voices]; omega
  rw [ht] at hdue
  rw [startRun, hpasses, hdue.runVoices_of_ok (by omega) hok, finish, tapeEnded_of_atReset ha ht]

end Sys2Proof.Machine

/-! SUPPORT. The statements about runs over voices that raise nothing. -/

namespace Sys2Proof.Proofs

open Sys2Proof.Machine

/-- Settles O41: the three ways to start a run are one run, voice by voice to the final gap. -/
theorem wellFormedTapeRunsToTheEnd : Obligations.WellFormedTapeRunsToTheEnd := by
  rintro s m init v final hr ha rfl hn hok ht vs o words written t
  have hrun : startRun s = .next t := startRun_of_ok ha ht hn hok
  have hreset : ∀ m, atReset { s with mode := m } := fun m => ha.congr m s.tape
  refine ⟨(exec_start hr ha).trans hrun, fun hm => ?_, fun hm => ?_⟩
  · have hs : { s with mode := .decode } = s := by rw [← hm]
    exact ⟨(exec_runDecoder (s := { s with mode := .tweak }) hr (hreset .tweak)).trans (hs ▸ hrun),
      (exec_runDecoder hr ha).trans (hs ▸ hrun)⟩
  · have hs : { s with mode := .tweak } = s := by rw [← hm]
    exact ⟨(exec_runTweak (s := { s with mode := .decode }) hr (hreset .decode)).trans (hs ▸ hrun),
      (exec_runTweak hr ha).trans (hs ▸ hrun)⟩

/-- Settles O42: the fourth pass finds a word where the tape must end. -/
theorem trailingDataIsRaised : Obligations.TrailingDataIsRaised := by
  intro s vs bl rest f hr ha hlen hok hbl hf ht
  obtain ⟨init, v, rfl⟩ := (List.eq_nil_or_concat' vs).resolve_left (List.ne_nil_of_length_eq_add_one hlen)
  have hinit : init.length = 3 := by simpa using hlen
  have hdue := voiceDue_of_atReset ha
  rw [ht, List.append_assoc] at hdue
  have hraises := hdue.runVoices_trailing (k := 0) (by omega) hok hbl hf
  have hwidx : (setRunning s).widx = 0 := by rw [ha]; rfl
  have hout : s.status.outValid = false := by rw [ha]; rfl
  rw [hinit, hwidx, Nat.zero_add] at hraises
  rw [exec_start hr ha]
  exact hraises.finish _ hr.2 hout

end Sys2Proof.Proofs

/-! SUPPORT. What a part of a run that completes says of its tape: a word, a block, a voice that raises nothing stood
there, since anything else raises a fault (R282). -/

namespace Sys2Proof.Machine

variable {s t : State} {fs : List Frame}

theorem Raises.ne_done {α : Type} {k : FaultKind} {info : FInfo} {status : Status} {x : Act α} {a : α}
    (h : Raises k info status x) : x ≠ .done a t := by
  obtain ⟨u, rfl, _⟩ := h
  nofun

/-! ### Words -/

theorem exists_blankFrames (h : ∀ f ∈ fs, isBinary f = false) : ∃ bs, fs = blankFrames bs := by
  refine ⟨fs.map fun f => f.extractLsb' 0 7, ?_⟩
  rw [blankFrames, List.map_map]
  exact (List.map_id fs).symm.trans (List.map_congr_left fun f hf => (blankFrame_eq (h f hf)).symm)

/-- A binary frame is its flag and seven further bits (R90). -/
theorem exists_flagged {f : Frame} (h : isBinary f = true) : ∃ d : BitVec 7, f = 1#1 ++ d := by
  refine ⟨f.extractLsb' 0 7, ?_⟩
  have hflag : (1#1 : BitVec 1) = f.extractLsb' 7 1 := by simp [flag_eq_isBinary, h]
  rw [hflag]
  symm
  exact BitVec.extractLsb'_append_extractLsb'

theorem extractLsb'_groups (d0 d1 d2 : Data6) :
    (d0 ++ d1 ++ d2).extractLsb' 12 6 = d0 ∧ (d0 ++ d1 ++ d2).extractLsb' 6 6 = d1 ∧
      (d0 ++ d1 ++ d2).extractLsb' 0 6 = d2 := by
  refine ⟨?_, ?_, BitVec.extractLsb'_append_eq_right⟩
  · exact (BitVec.extractLsb'_append_eq_of_le (by omega)).trans BitVec.extractLsb'_append_eq_left
  · exact (BitVec.extractLsb'_append_eq_of_le (by omega)).trans BitVec.extractLsb'_append_eq_right

/-- Blank frames and three binary frames are a word of a tape (R93). -/
theorem exists_inkedWord {bl : List Frame} {f0 f1 f2 : Frame} {w : Word} (hbl : ∀ b ∈ bl, isBinary b = false)
    (hw : decodeFrame f0 f1 f2 = some w) : ∃ x : InkedWord, bl ++ [f0, f1, f2] = x.frames := by
  obtain ⟨⟨h0, h1, h2⟩, rfl⟩ := decodeFrame_eq_some_iff.1 hw
  obtain ⟨e0, e1, e2⟩ := extractLsb'_groups (data6 f0) (data6 f1) (data6 f2)
  obtain ⟨bs, rfl⟩ := exists_blankFrames hbl
  refine ⟨⟨bs, f0.extractLsb' 6 1, f1.extractLsb' 6 1, f2.extractLsb' 6 1,
    data6 f0 ++ data6 f1 ++ data6 f2⟩, ?_⟩
  rw [InkedWord.frames, e0, e1, e2, binaryFrame_eq h0, binaryFrame_eq h1, binaryFrame_eq h2]

/-- Where a word was read, a word stood on the tape (R191). -/
theorem readBlockWord_done {r : BlockWord} (h : Ahead fs s) (hg : s.gap = 0) (hread : readBlockWord s = .done r t) :
    ∃ x rest, fs = InkedWord.frames x ++ rest ∧ r = { w := x.w, g := s.gap + x.blanks.length, j := s.widx } ∧
      t = takeWord x s := by
  rcases blanks_or_binary fs with hbl | ⟨bl, f0, rest, rfl, hbl, h0⟩
  · obtain ⟨bs, rfl⟩ := exists_blankFrames hbl
    exact absurd hread (readBlockWord_end h hg).ne_done
  rcases broken_or_word h0 rest with ⟨f1, next, sub, rfl, h1, hn⟩ | ⟨f1, f2, rest, w, rfl, hw⟩
  · obtain ⟨bs, rfl⟩ := exists_blankFrames hbl
    obtain ⟨d0, rfl⟩ := exists_flagged h0
    obtain ⟨d1, rfl⟩ : ∃ d1 : Option (BitVec 7), f1 = d1.map (1#1 ++ ·) := by
      cases f1 with
      | none => exact ⟨none, rfl⟩
      | some f1 =>
        obtain ⟨d1, rfl⟩ := exists_flagged (h1 f1 rfl)
        exact ⟨some d1, rfl⟩
    have hbroken : Ahead (brokenGroup bs d0 d1 next) s := by
      cases d1 <;> simpa [brokenGroup] using h
    exact absurd hread (readBlockWord_broken hbroken hn).ne_done
  · obtain ⟨x, hx⟩ := exists_inkedWord hbl hw
    have hfs : bl ++ f0 :: f1 :: f2 :: rest = x.frames ++ rest := by rw [← hx, List.append_assoc]; rfl
    rw [hfs] at h
    rw [readBlockWord_word h] at hread
    cases hread
    exact ⟨x, rest, hfs, rfl, rfl⟩

/-! ### The words after a count word -/

/-- Where content words were read and taken and the checksum word closed the block, they stood on the tape: `P` holds
where a content word is due, and a content word that is taken is one of `L`. -/
theorem blockTail_done {α : Type} {take : Word → Nat → State → Act Unit} {close : Word → Nat → State → Act α} {a : α}
    {P : State → Prop} {L : Word → Prop} (hread : ∀ x u, P u → P (takeWord x u))
    (htake : ∀ w j u u', P u → take w j u = .done () u' → L w ∧ P u' ∧ reading u' = reading u) {n : Nat}
    (h : Fresh fs s) (hp : P s) (hx : blockTail take close n s = .done a t) :
    ∃ (xs : List InkedWord) (c : InkedWord) (rest : List Frame),
      fs = xs.flatMap InkedWord.frames ++ (c.frames ++ rest) ∧ xs.length = n ∧ ∀ x ∈ xs, L x.w := by
  induction n generalizing s fs with
  | zero =>
    obtain ⟨r, s1, hr, _⟩ := bind_eq_done.1 hx
    obtain ⟨c, rest, rfl, -, -⟩ := readBlockWord_done h.toAhead h.noGap hr
    exact ⟨[], c, rest, rfl, rfl, nofun⟩
  | succ n ih =>
    obtain ⟨r, s1, hr, hx⟩ := bind_eq_done.1 hx
    obtain ⟨x, rest, rfl, rfl, rfl⟩ := readBlockWord_done h.toAhead h.noGap hr
    obtain ⟨_, s2, htaken, hx⟩ := bind_eq_done.1 hx
    obtain ⟨hw, hp2, hsame⟩ := htake _ _ _ _ (hread x s hp) htaken
    obtain ⟨xs, c, rest', rfl, hlen, hl⟩ := ih ((fresh_takeWord h.toAhead).congr hsame) hp2 hx
    exact ⟨x :: xs, c, rest', (List.append_assoc _ _ _).symm, congrArg (· + 1) hlen, List.forall_mem_cons.2 ⟨hw, hl⟩⟩

theorem counted_of_length {c k : InkedWord} {xs : List InkedWord} (h : xs.length = c.w.toNat) :
    InkedBlock.counted ⟨c, xs, k⟩ :=
  ⟨h ▸ c.w.isLt, by rw [h, BitVec.ofNat_toNat, BitVec.setWidth_eq]⟩

/-- The frames of a count word and those after it are the frames of the block. -/
theorem frames_block_append (c k : InkedWord) (xs : List InkedWord) (rest : List Frame) :
    c.frames ++ (xs.flatMap InkedWord.frames ++ (k.frames ++ rest)) = InkedBlock.frames ⟨c, xs, k⟩ ++ rest := by
  simp [InkedBlock.frames_eq]

/-! ### A Notes block -/

theorem takeNotesContent_done {w : Word} {j : Nat} (h : takeNotesContent w j s = .done () t) :
    legalContent w ∧ reading t = reading s := by
  by_cases hl : legalContent w
  · rw [takeNotesContent_of_legal hl] at h
    cases h
    exact ⟨hl, rfl⟩
  · exact absurd h (takeNotesContent_raises hl j s).ne_done

/-- Where a Notes block was parsed, one that raises nothing stood on the tape (R192). -/
theorem parseNotes_done (h : Ahead fs s) (hg : s.gap = 0) (hx : parseNotes s = .done () t) :
    ∃ b rest, fs = InkedBlock.frames b ++ rest ∧ b.notesOk := by
  have htail := hx
  rw [parseNotes_eq] at htail
  obtain ⟨r, s1, hr, htail⟩ := bind_eq_done.1 htail
  obtain ⟨c, rest, rfl, rfl, rfl⟩ := readBlockWord_done (ahead_beginNotes h) hg hr
  have hopen : Fresh rest (openNotes c.w (s.gap + c.blanks.length) (takeWord c (beginNotes s))) :=
    (fresh_takeWord (ahead_beginNotes h)).congr rfl
  rw [takeNotesCount_eq] at htail
  obtain ⟨xs, k, rest, rfl, hlen, hl⟩ := blockTail_done (take := takeNotesContent) (P := fun _ => True)
    (fun _ _ => id) (fun _ _ _ _ _ hu => (takeNotesContent_done hu).imp_right (⟨trivial, ·⟩)) hopen trivial htail
  have hcounted : InkedBlock.counted ⟨c, xs, k⟩ := counted_of_length hlen
  rw [frames_block_append] at h ⊢
  have hwords := ahead_words h
  refine ⟨_, rest, rfl, hcounted, ?_, hl⟩
  by_contra hsum
  rw [parseNotes_after hwords (n := 0) hlen.symm hl, blockTail_check (fresh_notesAfter hwords).toAhead] at hx
  exact absurd hx (takeNotesChecksum_raises (s := takeWord k (notesAfter c xs s)) hsum _).ne_done

/-! ### A Bars block -/

theorem NotesHeld.takeBarsContent_done {ns : List Word} (hs : NotesHeld ns s) {w : Word} {j : Nat}
    (h : takeBarsContent w j s = .done () t) :
    (w = Config.sep ∨ w.toNat < ns.length) ∧ NotesHeld ns t ∧ reading t = reading s := by
  by_cases hw : w = Config.sep ∨ w.toNat < ns.length
  · rw [hs.takeBarsContent_eq hw] at h
    cases h
    exact ⟨hw, ⟨hs.small, hs.count, hs.cells⟩, rfl⟩
  · obtain ⟨hsep, hk⟩ := not_or.1 hw
    exact absurd h (hs.takeBarsContent_raises hsep (Nat.not_lt.1 hk) j).ne_done

/-- Where a Bars block was parsed, one that raises nothing stood on the tape (R194, R195). -/
theorem parseBars_done {ns : List Word} {p : Bool × Nat} (h : Ahead fs s) (hg : s.gap = 0) (hs : NotesHeld ns s)
    (hx : parseBars s = .done p t) : ∃ b rest, fs = InkedBlock.frames b ++ rest ∧ b.barsOk ns.length := by
  obtain ⟨r, s1, hr, -⟩ := bind_eq_done.1 hx
  obtain ⟨c, rest, rfl, -, -⟩ := readBlockWord_done (ahead_beginBars h) hg hr
  have hgap : 0 < c.blanks.length := by
    by_contra hgap
    have hnone : s.gap + c.blanks.length = 0 := by omega
    rw [parseBars_count h, hnone] at hx
    exact absurd hx ((takeBarsCount_raises _ _ _).bind _).ne_done
  have htail := hx
  rw [parseBars_count h, takeBarsCount_of_gap (by omega), bind_done] at htail
  have hopen : Fresh rest (openBars c.w (s.gap + c.blanks.length) (takeWord c (beginBars s))) :=
    (fresh_takeWord (ahead_beginBars h)).congr rfl
  have hheld : NotesHeld ns (openBars c.w (s.gap + c.blanks.length) (takeWord c (beginBars s))) :=
    ⟨hs.small, hs.count, hs.cells⟩
  obtain ⟨xs, k, rest, rfl, hlen, hok⟩ := blockTail_done (take := takeBarsContent) (P := NotesHeld ns)
    (fun x u hu => ⟨hu.small, hu.count, hu.cells⟩) (fun w j u u' hu => hu.takeBarsContent_done) hopen hheld htail
  have hcounted : InkedBlock.counted ⟨c, xs, k⟩ := counted_of_length hlen
  rw [frames_block_append] at h ⊢
  have hwords := ahead_words h
  refine ⟨_, rest, rfl, hcounted, ?_, hgap, hok⟩
  by_contra hsum
  rw [parseBars_after hwords hs hgap (n := 0) hlen.symm hok, blockTail_check (fresh_barsAfter hwords ns).toAhead]
    at hx
  exact absurd hx (takeBarsChecksum_raises (s := takeWord k (barsAfter ns c xs s)) hsum _).ne_done

/-! ### A voice and a run -/

/-- Where a pass of the loop completed, a voice that raises nothing stood on the tape (R232). -/
theorem runVoice_done {o : Option (BitVec 3)} (h : Ahead fs s) (hg : s.gap = 0) (hx : runVoice s = .done o t) :
    ∃ x rest, fs = InkedVoice.frames x ++ rest ∧ x.ok := by
  obtain ⟨_, s1, hnotes, hx⟩ := bind_eq_done.1 hx
  obtain ⟨p, s2, hbars, -⟩ := bind_eq_done.1 hx
  obtain ⟨b, rest, rfl, hb⟩ := parseNotes_done h hg hnotes
  obtain rfl : _ = s1 := by simpa [parseNotes_of_notesOk h hg hb] using hnotes
  have hahead : Ahead rest (notesParsed b s) := ⟨h.between, (restOfTape_advance h.frames).trans List.drop_left⟩
  obtain ⟨b', rest, rfl, hb'⟩ := parseBars_done hahead hg (notesHeld_notesParsed hb.1 s) hbars
  rw [b.length_words] at hb'
  exact ⟨⟨b, b'⟩, rest, (List.append_assoc _ _ _).symm, hb, hb'⟩

theorem countBlanks_no_more {g : Nat} (h : countBlanks fs = (false, g)) : ∃ bs, fs = blankFrames bs := by
  rcases blanks_or_binary fs with hbl | ⟨bl, f, rest, rfl, hbl, hf⟩
  · exact exists_blankFrames hbl
  · simp [countBlanks_binary hbl hf] at h

theorem afterBars_more {o : Option (BitVec 3)} {g : Nat} (h : afterBars (true, g) s = .done o t) :
    o = none ∧ t = nextVoice g s := by
  rw [afterBars, if_pos rfl] at h
  split at h
  · cases h
  · cases h
    exact ⟨rfl, rfl⟩

/-- Where a run came to its end, voices that raise nothing stood on the tape (R232, R282). -/
theorem VoiceDue.runVoices_done {m k : Nat} {a : BitVec 3} (h : VoiceDue m fs s) (hs : s.status.done = false)
    (hx : runVoices k s = .done a t) (ht : t.status.done = true) :
    ∃ init v final, fs = tapeFrames (init ++ [v]) final ∧ init.length < k ∧ ∀ x ∈ init ++ [v], x.ok := by
  induction k generalizing m s fs with
  | zero =>
    cases hx
    simp [hs] at ht
  | succ k ih =>
    obtain ⟨o, s1, hvoice, hx⟩ := bind_eq_done.1 hx
    obtain ⟨x, rest, rfl, hok⟩ := runVoice_done h.toAhead h.noGap hvoice
    rw [runVoice_of_ok h.toAhead h.noGap hok] at hvoice
    rcases hpeek : countBlanks rest with ⟨more, g⟩
    cases more with
    | false =>
      obtain ⟨bs, rfl⟩ := countBlanks_no_more hpeek
      refine ⟨[], x, bs, ?_, Nat.succ_pos k, List.forall_mem_singleton.2 hok⟩
      rw [List.nil_append, tapeFrames, List.flatMap_singleton]
    | true =>
      rw [hpeek] at hvoice
      obtain ⟨rfl, rfl⟩ := afterBars_more hvoice
      have hstatus : (Machine.voicePassed g x s).status = s.status := by rw [voicePassed_eq_report]; rfl
      obtain ⟨init, v, final, rfl, hlen, hall⟩ := ih (h.voicePassed g) (hstatus ▸ hs) hx
      exact ⟨x :: init, v, final, (List.append_assoc _ _ _).symm, Nat.succ_lt_succ hlen,
        List.forall_mem_cons.2 ⟨hok, hall⟩⟩

/-! ### A run that faults -/

theorem afterBars_ends (p : Bool × Nat) (s : State) :
    (afterBars p s).Ends (fun o t => o = none → t.status = s.status) (Raised s) := by
  unfold afterBars
  split
  · split
    · exact raised_raise s nofun rfl
    · exact fun _ => by rw [nextVoice_eq_report]; rfl
  · exact (fuRead_sound s).bind fun _ _ _ _ => nofun

theorem runVoice_ends (s : State) : (runVoice s).Ends (fun o t => o = none → t.status = s.status) (Raised s) :=
  (parseNotes_sound s).bind fun _ t _ ht => (ht.sound (parseBars_sound t)).bind fun p u _ hu =>
    (afterBars_ends p u).mono (fun _ _ _ h ho => (h ho).trans hu.status) fun _ => hu.raised

/-- A run that faults leaves `DONE` as it was (R281). -/
theorem runVoices_raised_status : ∀ (n : Nat) (s : State),
    (runVoices n s).Ends (fun _ _ => True) fun t => t.status.done = s.status.done
  | 0, _ => trivial
  | n + 1, s => by
    refine Act.Ends.bind (Q := fun o t => o = none → t.status = s.status)
      ((runVoice_ends s).mono (fun _ _ _ => id) fun _ hr => by rw [hr.status]) fun o t _ ht => ?_
    cases o with
    | some _ => trivial
    | none => exact ht rfl ▸ runVoices_raised_status n t

/-- A run from reset that completes is one over one to four voices that raise nothing (R232, R264, R281). -/
theorem startRun_done (ha : atReset s) (h : startRun s = .next t) (ht : t.status.done = true) :
    ∃ init v final, s.tape = tapeFrames (init ++ [v]) final ∧ init.length ≤ 3 ∧ (∀ x ∈ init ++ [v], x.ok) ∧
      t = ranToEnd init v final.length s := by
  have hdone : (setRunning s).status.done = false := by rw [ha]; rfl
  rcases finish_eq_next.1 h with ⟨a, u, hu, rfl⟩ | ⟨u, hu, rfl⟩
  · obtain ⟨init, v, final, htape, hlen, hok⟩ := (voiceDue_of_atReset ha).runVoices_done hdone hu ht
    have hlen : init.length ≤ 3 := Nat.le_of_lt_succ hlen
    refine ⟨init, v, final, htape, hlen, hok, ?_⟩
    rw [startRun_of_ok ha htape hlen hok] at h
    injection h with h
    exact h.symm
  · have hstatus : u.status.done = false := ((runVoices_raised_status _ _).of_raised hu).trans hdone
    exact absurd (hstatus.symm.trans ht) nofun

end Sys2Proof.Machine

/-! SUPPORT. The output of a Tweak run as a tape of voices, which raise nothing where those of the input do not (R226,
R241, R243). -/

namespace Sys2Proof.Machine

/-! ### Words and blocks in canonical frames -/

/-- A word in canonical frames after `g` zero frames (R222, R223). -/
def plainWord (g : Nat) (w : Word) : InkedWord where
  blanks := List.replicate g 0#7
  x0 := 0#1
  x1 := 0#1
  x2 := 0#1
  w := w

theorem frames_plainWord (g : Nat) (w : Word) : (plainWord g w).frames = gapFrames g ++ wordFrames w := by
  rw [InkedWord.frames, plainWord, blankFrames, List.map_replicate, wordFrames, encodeFrame, binFrame_eq, binFrame_eq,
    binFrame_eq]
  rfl

/-- A block as TE writes it after `g` zero frames (R198, R226). -/
def plainBlock (g : Nat) (ws : List Word) : InkedBlock where
  count := plainWord g (BitVec.ofNat 18 ws.length)
  content := ws.map (plainWord 0)
  check := plainWord 0 (blockChecksum ws)

@[simp] theorem gap_plainBlock (g : Nat) (ws : List Word) : (plainBlock g ws).gap = g := List.length_replicate

@[simp] theorem words_plainBlock (g : Nat) (ws : List Word) : (plainBlock g ws).words = ws := by
  rw [InkedBlock.words, plainBlock, List.map_map]
  exact List.map_id ws

theorem frames_plainBlock (g : Nat) (ws : List Word) : (plainBlock g ws).frames = gapFrames g ++ blockFrames ws := by
  have hcontent : (ws.map (plainWord 0)).flatMap InkedWord.frames = ws.flatMap wordFrames := by
    rw [List.flatMap_map]
    exact congrArg (List.flatMap · ws) (funext fun w => frames_plainWord 0 w)
  rw [InkedBlock.frames_eq, List.flatMap_cons, plainBlock, hcontent, frames_plainWord, frames_plainWord, blockFrames]
  simp only [List.append_assoc]
  rfl

theorem counted_plainBlock (g : Nat) {ws : List Word} (h : ws.length < 262144) : (plainBlock g ws).counted := by
  have hlen : (plainBlock g ws).content.length = ws.length := List.length_map _
  exact ⟨hlen ▸ h, by rw [hlen]; rfl⟩

theorem summed_plainBlock (g : Nat) (ws : List Word) : (plainBlock g ws).summed := by
  rw [InkedBlock.summed, words_plainBlock]
  rfl

/-- The content words of such a block have what its words have. -/
theorem forall_content_plainBlock {P : Word → Prop} {g : Nat} {ws : List Word} :
    (∀ x ∈ (plainBlock g ws).content, P x.w) ↔ ∀ w ∈ ws, P w := List.forall_mem_map

/-! ### Words under a tempo override -/

theorem classify_substWord (o : Option Tempo15) (w : Word) : classify (substWord o w) = classify w := by
  by_cases h : classify w = .tempo
  · cases o with
    | none => rfl
    | some t => rw [substWord, if_pos h, classify_tempoWord, h]
  · rw [substWord_of_ne_tempo o h]

theorem substWord_eq_sep_iff {o : Option Tempo15} {w : Word} : substWord o w = Config.sep ↔ w = Config.sep := by
  rw [← classify_eq_sep_iff, classify_substWord, classify_eq_sep_iff]

theorem legalContent_substWord {o : Option Tempo15} {w : Word} (h : legalContent w) : legalContent (substWord o w) := by
  intro hc
  rw [classify_substWord] at hc
  rw [substWord_of_ne_tempo o (by simp [hc])]
  exact h hc

/-! ### Voices -/

/-- A voice as the Tweak run writes it, after a gap of `g` frames (R241). -/
def InkedVoice.written (o : Option Tempo15) (g : Nat) (x : InkedVoice) : InkedVoice where
  notes := plainBlock g (x.notes.rewritten o)
  bars := plainBlock x.bars.gap x.bars.words

theorem length_rewritten (o : Option Tempo15) (b : InkedBlock) : (b.rewritten o).length = b.words.length :=
  List.length_map _

theorem frames_written (o : Option Tempo15) (g : Nat) (x : InkedVoice) :
    (x.written o g).frames = gapFrames g ++ voiceOutput o x := by
  rw [InkedVoice.frames, InkedVoice.written, frames_plainBlock, frames_plainBlock, voiceOutput]
  simp only [List.append_assoc]
  rfl

theorem wordCount_written (o : Option Tempo15) (g : Nat) (x : InkedVoice) :
    (x.written o g).wordCount = x.wordCount := by
  rw [InkedVoice.wordCount_eq, x.wordCount_eq, InkedVoice.written, words_plainBlock, words_plainBlock, length_rewritten]

/-- A voice that raises nothing is written as one (R226, R243). -/
theorem ok_written {x : InkedVoice} (h : x.ok) (o : Option Tempo15) (g : Nat) : (x.written o g).ok := by
  obtain ⟨⟨hcount, _, hlegal⟩, hcount', _, hgap, hindex⟩ := h
  have hlen : (x.notes.rewritten o).length = x.notes.content.length := by
    rw [length_rewritten, x.notes.length_words]
  have hlen' : (x.written o g).notes.content.length = x.notes.content.length := (List.length_map _).trans hlen
  refine ⟨⟨counted_plainBlock g (hlen ▸ hcount.1), summed_plainBlock g _, ?_⟩,
    counted_plainBlock _ (x.bars.length_words ▸ hcount'.1), summed_plainBlock _ _, ?_, ?_⟩
  · rw [InkedVoice.written, forall_content_plainBlock, InkedBlock.rewritten, InkedBlock.words, List.map_map,
      List.forall_mem_map]
    exact fun y hy => legalContent_substWord (hlegal y hy)
  · rw [InkedVoice.written, gap_plainBlock]
    exact hgap
  · rw [hlen', InkedVoice.written, forall_content_plainBlock (P := fun w => w = Config.sep ∨ w.toNat < _),
      InkedBlock.words, List.forall_mem_map]
    exact hindex

/-- Voices as the Tweak run writes them: a gap of `g` frames before the first, the configured one before the others
(R235, R241). -/
def writtenVoices (o : Option Tempo15) (gapLen : Nat) : Nat → List InkedVoice → List InkedVoice
  | _, [] => []
  | g, x :: xs => x.written o g :: writtenVoices o gapLen gapLen xs

section
variable (o : Option Tempo15) (gapLen : Nat)

theorem length_writtenVoices (g : Nat) (vs : List InkedVoice) : (writtenVoices o gapLen g vs).length = vs.length := by
  induction vs generalizing g with
  | nil => rfl
  | cons x xs ih => rw [writtenVoices, List.length_cons, List.length_cons, ih]

theorem wordCount_writtenVoices (g : Nat) (vs : List InkedVoice) :
    (writtenVoices o gapLen g vs).map InkedVoice.wordCount = vs.map InkedVoice.wordCount := by
  induction vs generalizing g with
  | nil => rfl
  | cons x xs ih => rw [writtenVoices, List.map_cons, List.map_cons, ih, wordCount_written]

theorem ok_writtenVoices (g : Nat) {vs : List InkedVoice} (h : ∀ x ∈ vs, x.ok) :
    ∀ x ∈ writtenVoices o gapLen g vs, x.ok := by
  induction vs generalizing g with
  | nil => nofun
  | cons x xs ih =>
    obtain ⟨hx, h⟩ := List.forall_mem_cons.1 h
    exact List.forall_mem_cons.2 ⟨ok_written hx o g, ih gapLen h⟩

/-- The frames of these voices are the frames the run writes (R241). -/
theorem frames_writtenVoices (final g : Nat) (x : InkedVoice) (xs : List InkedVoice) :
    (writtenVoices o gapLen g (x :: xs)).flatMap InkedVoice.frames ++ gapFrames final =
      gapFrames g ++ voicesOutput o gapLen final (x :: xs) := by
  induction xs generalizing g x with
  | nil =>
    rw [writtenVoices, writtenVoices, List.flatMap_singleton, frames_written, voicesOutput, List.append_assoc]
  | cons y ys ih =>
    rw [writtenVoices, List.flatMap_cons, List.append_assoc, ih, frames_written, voicesOutput]
    simp only [List.append_assoc]

/-- The output of a Tweak run is a tape of these voices (R241). -/
theorem tapeFrames_writtenVoices (final : Nat) {vs : List InkedVoice} (h : vs ≠ []) :
    tapeFrames (writtenVoices o gapLen (leaderGap vs) vs) (List.replicate final 0#7) =
      tweakOutput o gapLen final vs := by
  obtain ⟨x, xs, rfl⟩ := List.exists_cons_of_ne_nil h
  rw [tapeFrames, blankFrames, List.map_replicate]
  exact frames_writtenVoices o gapLen final _ x xs

end

end Sys2Proof.Machine

/-! SUPPORT. What a Decoder run reports of the output of a Tweak run, record for record (R243, R244). -/

namespace Sys2Proof.Machine

/-! ### Records that correspond -/

/-- The records compared: all of them without an override, all but the Notes checksums under one (R243, R244). -/
def compared (o : Option Tempo15) (e : Event) : Bool := o.isNone || !isNotesChecksum e

/-- The record of the output tape that corresponds to one of the input tape (R243, R244). -/
def decodedBack (o : Option Tempo15) (gapLen framesIn : Nat) (e : Event) : Event :=
  match o with
  | none => regapped gapLen framesIn e
  | some t => retempoed t gapLen framesIn e

theorem isNotesChecksum_regapped (gapLen framesIn : Nat) (e : Event) :
    isNotesChecksum (regapped gapLen framesIn e) = isNotesChecksum e := by
  cases e with
  | gap kind len => cases kind <;> rfl
  | _ => rfl

theorem isNotesChecksum_retempoed (t : Tempo15) (gapLen framesIn : Nat) (e : Event) :
    isNotesChecksum (retempoed t gapLen framesIn e) = isNotesChecksum e := by
  cases e with
  | gap kind len => cases kind <;> rfl
  | _ => rfl

theorem compared_decodedBack (o : Option Tempo15) (gapLen framesIn : Nat) (e : Event) :
    compared o (decodedBack o gapLen framesIn e) = compared o e := by
  cases o with
  | none => rfl
  | some t => exact congrArg (fun b => false || !b) (isNotesChecksum_retempoed t gapLen framesIn e)

/-- The compared records of the second list are those of the first as the output tape shows them. -/
def ShownAs (o : Option Tempo15) (gapLen framesIn : Nat) (es es' : List Event) : Prop :=
  es'.filter (compared o) = (es.filter (compared o)).map (decodedBack o gapLen framesIn)

section
variable {o : Option Tempo15} {gapLen framesIn : Nat}

theorem ShownAs.nil : ShownAs o gapLen framesIn [] [] := rfl

theorem ShownAs.append {es es' fs fs' : List Event} (h : ShownAs o gapLen framesIn es es')
    (h' : ShownAs o gapLen framesIn fs fs') : ShownAs o gapLen framesIn (es ++ fs) (es' ++ fs') := by
  rw [ShownAs, List.filter_append, List.filter_append, List.map_append, h, h']

theorem shownAs_map (es : List Event) : ShownAs o gapLen framesIn es (es.map (decodedBack o gapLen framesIn)) := by
  rw [ShownAs, List.filter_map]
  exact congrArg _ (congrArg (List.filter · es) (funext (compared_decodedBack o gapLen framesIn)))

theorem shownAs_of_eq {es es' : List Event} (h : es' = es.map (decodedBack o gapLen framesIn)) :
    ShownAs o gapLen framesIn es es' := h ▸ shownAs_map es

theorem ShownAs.cons {e e' : Event} {es es' : List Event} (he : e' = decodedBack o gapLen framesIn e)
    (h : ShownAs o gapLen framesIn es es') : ShownAs o gapLen framesIn (e :: es) (e' :: es') :=
  (shownAs_of_eq (es := [e]) (congrArg (fun e => [e]) he)).append h

/-! ### Records that show no tempo word -/

theorem decodedBack_count (v : BitVec 3) (b : Blk) (c : Word) :
    decodedBack o gapLen framesIn (.count v b c) = .count v b c := by cases o <;> rfl

theorem decodedBack_gap (k : GapKind) (hk : k ≠ .interVoice) (g : Nat) :
    decodedBack o gapLen framesIn (.gap k g) = .gap k g := by
  cases k with
  | interVoice => exact absurd rfl hk
  | _ => cases o <;> rfl

theorem decodedBack_interVoice (g : Nat) :
    decodedBack o gapLen framesIn (.gap .interVoice g) = .gap .interVoice gapLen := by cases o <;> rfl

theorem decodedBack_checksum (v : BitVec 3) (b : Blk) (e c : Word) (out : Option Word) :
    decodedBack o gapLen framesIn (.checksum v b e c out) = .checksum v b e c out := by cases o <;> rfl

theorem decodedBack_ended (v : BitVec 3) (n i j : Nat) :
    decodedBack o gapLen framesIn (.ended v n i j) = .ended v n framesIn j := by cases o <;> rfl

/-! ### Blocks -/

theorem contentEvent_substWord (v : BitVec 3) (i : Nat) (w : Word) :
    contentEvent v none i (substWord o w) = decodedBack o gapLen framesIn (contentEvent v none i w) := by
  cases hc : classify w with
  | tempo =>
    cases o with
    | none => simp [contentEvent, substWord, hc, decodedBack, regapped]
    | some t => simp [contentEvent, substWord, hc, classify_tempoWord, tempo15_tempoWord, decodedBack, retempoed]
  | sep => cases o <;> simp [contentEvent, substWord, hc, decodedBack, retempoed, regapped]
  | note => cases o <;> simp [contentEvent, substWord, hc, decodedBack, retempoed, regapped]

theorem contentEvents_substWord (v : BitVec 3) (i : Nat) (ws : List Word) :
    contentEvents v none i (ws.map (substWord o)) =
      (contentEvents v none i ws).map (decodedBack o gapLen framesIn) := by
  induction ws generalizing i with
  | nil => rfl
  | cons w ws ih => rw [List.map_cons, contentEvents, contentEvents, List.map_cons, ih, contentEvent_substWord]

/-- A bar of rewritten words is the bar rewritten: no word becomes a separator or ceases to be one (R196, R204). -/
theorem barWords_substWord (ns : List Word) (k : Word) :
    barWords (ns.map (substWord o)) k = (barWords ns k).map (substWord o) := by
  have hsep : ((fun w : Word => w != Config.sep) ∘ substWord o) = fun w => w != Config.sep := by
    funext w
    rw [Function.comp_apply, Bool.eq_iff_iff, bne_iff_ne, bne_iff_ne, Ne, Ne, substWord_eq_sep_iff]
  rw [barWords, ← List.map_drop, List.takeWhile_map, hsep]
  rfl

theorem barEvent_substWord (v : BitVec 3) (ns : List Word) (i : Nat) (k : Word) :
    barEvent v (ns.map (substWord o)) i k = decodedBack o gapLen framesIn (barEvent v ns i k) := by
  by_cases hk : k = Config.sep
  · rw [barEvent, barEvent, if_pos hk, if_pos hk]
    cases o <;> rfl
  · rw [barEvent, barEvent, if_neg hk, if_neg hk, barWords_substWord]
    cases o with
    | none => exact congrArg (Event.bar v i k) (List.map_id _)
    | some t => rfl

theorem barEvents_substWord (v : BitVec 3) (ns : List Word) (i : Nat) (ks : List Word) :
    barEvents v (ns.map (substWord o)) i ks = (barEvents v ns i ks).map (decodedBack o gapLen framesIn) := by
  induction ks generalizing i with
  | nil => rfl
  | cons k ks ih => rw [barEvents, barEvents, List.map_cons, ih, barEvent_substWord]

/-- A Notes block as it is written is reported as the block, its checksums apart (R197, R198). -/
theorem notesEvents_written (v : BitVec 3) (g : Nat) {b : InkedBlock} (hb : b.counted) (hsum : b.summed) :
    ShownAs o gapLen framesIn (notesEvents v none b) (notesEvents v none (plainBlock g (b.rewritten o))) := by
  have hcount : (plainBlock g (b.rewritten o)).count.w = b.count.w := by
    rw [hb.2, ← b.length_words, ← length_rewritten o b]
    rfl
  have hcheck : (plainBlock g (b.rewritten o)).check.w = blockChecksum (b.rewritten o) := rfl
  have hnone : ∀ ws : List Word, ws.map (substWord none) = ws := List.map_id
  rw [notesEvents, notesEvents, words_plainBlock, hcount, hcheck, hsum, hnone, hnone]
  refine (ShownAs.cons (decodedBack_count v _ _).symm (shownAs_of_eq (contentEvents_substWord v 0 _))).append ?_
  cases o with
  | none =>
    have hrewritten : b.rewritten none = b.words := hnone b.words
    rw [hrewritten]
    exact shownAs_of_eq rfl
  | some t => rfl

/-- A Bars block as it is written is reported as the block, with the bars of the rewritten words (R194 to R196). -/
theorem barsEvents_written (v : BitVec 3) (ns : List Word) {b : InkedBlock} (hb : b.counted) (hsum : b.summed) :
    ShownAs o gapLen framesIn (barsEvents v ns b)
      (barsEvents v (ns.map (substWord o)) (plainBlock b.gap b.words)) := by
  have hcount : (plainBlock b.gap b.words).count.w = b.count.w := by
    rw [hb.2, ← b.length_words]
    rfl
  have hcheck : (plainBlock b.gap b.words).check.w = blockChecksum b.words := rfl
  rw [barsEvents, barsEvents, words_plainBlock, hcount, hcheck, hsum, gap_plainBlock]
  exact (ShownAs.cons (decodedBack_gap .notesBars nofun _).symm <| .cons (decodedBack_count v _ _).symm <|
    shownAs_of_eq (barEvents_substWord v ns 0 _)).append <| .cons (decodedBack_checksum v _ _ _ _).symm .nil

/-! ### The whole tape -/

theorem voiceEvents_written (v : BitVec 3) (g : Nat) {x : InkedVoice} (h : x.ok) :
    ShownAs o gapLen framesIn (voiceEvents v none x) (voiceEvents v none (x.written o g)) := by
  obtain ⟨⟨hcount, hsum, _⟩, hcount', hsum', _⟩ := h
  have hwords : (x.written o g).notes.words = x.notes.words.map (substWord o) := words_plainBlock _ _
  rw [voiceEvents, voiceEvents, hwords]
  exact (notesEvents_written v g hcount hsum).append (barsEvents_written v _ hcount' hsum')

theorem voicesEvents_written (final n g : Nat) {vs : List InkedVoice} (h : ∀ x ∈ vs, x.ok) :
    ShownAs o gapLen framesIn (voicesEvents none final n vs)
      (voicesEvents none final n (writtenVoices o gapLen g vs)) := by
  induction vs generalizing n g with
  | nil => exact .nil
  | cons x xs ih =>
    obtain ⟨hx, h⟩ := List.forall_mem_cons.1 h
    have hvoice := voiceEvents_written (o := o) (gapLen := gapLen) (framesIn := framesIn) (BitVec.ofNat 3 n) g hx
    cases xs with
    | nil => exact hvoice.append (.cons (decodedBack_gap .final nofun _).symm .nil)
    | cons y ys =>
      have hgap : (y.written o gapLen).notes.gap = gapLen := gap_plainBlock _ _
      have hrest := ih (n + 1) gapLen h
      refine hvoice.append (.cons ?_ hrest)
      rw [decodedBack_interVoice, hgap]

/-- What a Decoder run reports of the output of a Tweak run (R243, R244). -/
theorem runEvents_written (final framesIn' : Nat) {vs : List InkedVoice} (h : ∀ x ∈ vs, x.ok) :
    ShownAs o gapLen framesIn (runEvents none vs final framesIn' 0)
      (runEvents none (writtenVoices o gapLen (leaderGap vs) vs) final framesIn 0) := by
  have hlead : leaderGap (writtenVoices o gapLen (leaderGap vs) vs) = leaderGap vs := by
    cases vs with
    | nil => rfl
    | cons x xs => exact gap_plainBlock _ _
  rw [runEvents, runEvents, hlead, length_writtenVoices, wordCount_writtenVoices]
  exact (ShownAs.cons (decodedBack_gap .leader nofun _).symm (voicesEvents_written final 1 _ h)).append <|
    .cons (decodedBack_ended _ _ _ _).symm .nil

end

/-! ### Tweak, then decode -/

variable {s t : State}

/-- A Decoder run over voices that raise nothing reports them as they are, writing nothing (R240). -/
theorem exec_runDecoder_of_ok (hr : Ready s) (ha : atReset s) {vs : List InkedVoice} {final : List (BitVec 7)}
    (ht : s.tape = tapeFrames vs final) (hlen : 1 ≤ vs.length ∧ vs.length ≤ 4) (hok : ∀ x ∈ vs, x.ok) :
    ∃ d, exec .runDecoder s = .next d ∧ d.status.done = true ∧
      d.ev = runEvents none vs final.length s.tape.length 0 := by
  obtain ⟨init, v, rfl⟩ := (List.eq_nil_or_concat' vs).resolve_left (List.ne_nil_of_length_pos hlen.1)
  have hinit : init.length + 1 ≤ 4 := by simpa using hlen.2
  have hreset : atReset { s with mode := .decode } := ha.congr .decode s.tape
  have hrun := startRun_of_ok (init := init) hreset ht (by omega) hok
  exact ⟨_, (exec_runDecoder hr ha).trans hrun, rfl, rfl⟩

/-- A Tweak run that completes, then a Decoder run over its output: it reports the records of the input as the output
shows them (R243, R244). -/
theorem tweak_then_decode (hr : Ready s) (ha : atReset s) (hx : exec .runTweak s = .next t)
    (ht : t.status.done = true) {o : Option Tempo15} (ho : override { s with mode := .tweak } = o) :
    ∃ d d', exec .runDecoder s = .next d ∧ d.status.done = true ∧
      exec .runDecoder { s with tape := t.out } = .next d' ∧ d'.status.done = true ∧
      ShownAs o s.gapLen t.out.length d.ev d'.ev := by
  rw [exec_runTweak hr ha] at hx
  obtain ⟨init, v, final, htape, hlen, hok, rfl⟩ := startRun_done (ha.congr .tweak s.tape) hx ht
  generalize hvs : init ++ [v] = vs at htape hok
  have hcount : 1 ≤ vs.length ∧ vs.length ≤ 4 := by
    rw [← hvs, List.length_append, List.length_singleton]
    omega
  have hout : (ranToEnd init v final.length { s with mode := .tweak }).out =
      tapeFrames (writtenVoices o s.gapLen (leaderGap vs) vs) (List.replicate final.length 0#7) := by
    rw [tapeFrames_writtenVoices o s.gapLen _ (List.ne_nil_of_length_pos hcount.1), ← ho, ← hvs]
    rfl
  obtain ⟨d, hd, hdone, hev⟩ := exec_runDecoder_of_ok hr ha htape hcount hok
  obtain ⟨d', hd', hdone', hev'⟩ := exec_runDecoder_of_ok
    (s := { s with tape := (ranToEnd init v final.length { s with mode := .tweak }).out }) hr (ha.congr s.mode _) hout
    (by rw [length_writtenVoices]; exact hcount) (ok_writtenVoices o s.gapLen _ hok)
  refine ⟨d, d', hd, hdone, hd', hdone', ?_⟩
  rw [hev, hev', List.length_replicate]
  exact runEvents_written final.length _ hok

end Sys2Proof.Machine

/-! SUPPORT. The statements about a Tweak run and a Decoder run over its output. -/

namespace Sys2Proof.Proofs

open Sys2Proof.Machine

/-- Settles O44: the output is a tape of the same voices, in which no word is changed. -/
theorem tweakWithoutOverridePreservesContent : Obligations.TweakWithoutOverridePreservesContent := by
  intro s t hr ha hen hx ht
  have ho : override { s with mode := .tweak } = none := if_neg (by simp [hen])
  obtain ⟨d, d', hd, hdone, hd', hdone', hshown⟩ := tweak_then_decode hr ha hx ht ho
  have hall : ∀ es : List Event, es.filter (compared none) = es := fun es => List.filter_eq_self.2 fun _ _ => rfl
  rw [ShownAs, hall, hall] at hshown
  exact ⟨d, d', hd, hdone, hd', hdone', hshown⟩

/-- Only a tempo record is shown as one, and it shows the parameter of the override (R244). -/
theorem tempo15_of_retempoed {t t15 : Tempo15} {gapLen framesIn : Nat} {e : Event} {v : BitVec 3} {i : Nat}
    {w wOut : Word} {bpm : Option Nat} (h : retempoed t gapLen framesIn e = .tempo v i w t15 bpm wOut) : t15 = t := by
  cases e with
  | tempo v i w t15 bpm wOut =>
    cases h
    rfl
  | gap kind len => cases kind <;> cases h
  | _ => cases h

/-- Settles O45: the output is a tape of the same voices, in which the tempo words alone are changed. -/
theorem tweakOverrideIsDecodedBack : Obligations.TweakOverrideIsDecodedBack := by
  intro s t hr ha hen hx ht
  have ho : override { s with mode := .tweak } = some s.tempoOvr := if_pos ⟨rfl, hen⟩
  obtain ⟨d, d', hd, hdone, hd', hdone', hshown⟩ := tweak_then_decode hr ha hx ht ho
  refine ⟨d, d', hd, hdone, hd', hdone', hshown, fun v i w t15 bpm wOut hmem => ?_⟩
  have hkept : Event.tempo v i w t15 bpm wOut ∈ d'.ev.filter (compared (some s.tempoOvr)) :=
    List.mem_filter.2 ⟨hmem, rfl⟩
  rw [hshown] at hkept
  obtain ⟨e, _, he⟩ := List.mem_map.1 hkept
  exact tempo15_of_retempoed he

end Sys2Proof.Proofs

/-! SUPPORT. The model's own field `result` decides nothing (log 4): what a word of the tape or the end of a voice does
with another result in place is what it does without it, that result kept. -/

namespace Sys2Proof.Machine

variable {α β : Type}

/-! ### Parts that look past the result -/

/-- The end of a part with this result in place. -/
def Act.withResult (r : Result) : Act α → Act α
  | .done a s => .done a (setResult r s)
  | .raised s => .raised (setResult r s)
  | .stuck f => .stuck f

/-- An operation puts its own result in place of the one that stood there. -/
theorem finish_withResult (f : α → Result) (r : Result) (x : Act α) : finish f (x.withResult r) = finish f x := by
  cases x <;> rfl

theorem withResult_ite {c : Prop} [Decidable c] (r : Result) (x y : Act α) :
    (if c then x else y).withResult r = if c then x.withResult r else y.withResult r := apply_ite _ _ _ _

theorem withResult_bind {r : Result} {x y : Act α} {f g : α → State → Act β} (hx : y = x.withResult r)
    (hf : ∀ a t, g a (setResult r t) = (f a t).withResult r) : y.bind g = (x.bind f).withResult r := by
  subst hx
  cases x with
  | done a t => exact hf a t
  | raised t => rfl
  | stuck g => rfl

/-- The part carries the result along and nothing else it does depends on it. -/
def Blind (x : State → Act α) : Prop := ∀ r s, x (setResult r s) = (x s).withResult r

/-! ### FU -/

theorem blind_fuFrame (f : Frame) : Blind (fuFrame f) := by
  intro r s
  simp only [fuFrame, withResult_ite]
  rfl

theorem blind_fuAtEnd : Blind fuAtEnd := by
  intro r s
  simp only [fuAtEnd, withResult_ite]
  rfl

theorem blind_readFrames : ∀ fs : List Frame, Blind (readFrames fs)
  | [], r, s => withResult_bind (blind_fuAtEnd r s) fun _ _ => rfl
  | f :: fs, r, s => withResult_bind (blind_fuFrame f r (passFrame s)) fun a t =>
    match a with
    | some _ => rfl
    | none => blind_readFrames fs r t

theorem blind_fuRead : Blind fuRead := fun r s => blind_readFrames (restOfTape s) r s

theorem blind_readBlockWord : Blind readBlockWord := fun r s =>
  withResult_bind (blind_fuRead r s) fun a _ =>
    match a with
    | .word _ _ => rfl
    | .endOfStream _ => rfl

/-! ### CS and NC -/

theorem blind_csVerify (e c : Word) (j : Option Nat) : Blind (csVerify e c j) := by
  intro r s
  rw [csVerify_eq, csVerify_eq, withResult_ite]
  rfl

theorem blind_nameArticulation (c : BitVec 4) (j : Option Nat) (w : Option Word) : Blind (nameArticulation c j w) := by
  intro r s
  rw [nameArticulation_eq, nameArticulation_eq]
  cases articulation c <;> rfl

/-! ### The words of a Notes block -/

theorem takeNotesCount_setResult (n : Word) (g : Nat) (r : Result) (s : State) :
    takeNotesCount n g (setResult r s) = setResult r (takeNotesCount n g s) := by
  rw [takeNotesCount_eq, takeNotesCount_eq]
  rfl

theorem blind_noteContent (w : Word) (i j : Nat) : Blind (noteContent w i j) := by
  intro r s
  unfold noteContent
  cases classify w with
  | tempo => rfl
  | sep => rfl
  | note => exact withResult_bind (blind_nameArticulation _ _ _ r s) fun _ _ => rfl

theorem blind_takeNotesContent (w : Word) (j : Nat) : Blind (takeNotesContent w j) := by
  intro r s
  refine withResult_bind (blind_noteContent w s.idx j r
    { s with notes := s.notes.write s.idx w, sumIn := csAdd s.sumIn w }) fun wOut t => ?_
  simp only [copyWord_eq_report]
  rfl

theorem blind_takeNotesChecksum (c : Word) (j : Nat) : Blind (takeNotesChecksum c j) := by
  intro r s
  refine withResult_bind (blind_csVerify c s.sumIn (some j) r s) fun _ t => ?_
  simp only [copyWord_eq_report]
  rfl

/-! ### The words of a Bars block -/

theorem blind_takeBarsCount (n : Word) (g j : Nat) : Blind (takeBarsCount n g j) := by
  intro r s
  simp only [takeBarsCount, withResult_ite, copyGap_eq_report, copyWord_eq_report]
  rfl

theorem blind_barContent (w : Word) (i j : Nat) : Blind (barContent w i j) := by
  intro r s
  have hslice : barSlice w (setResult r s) = barSlice w s := rfl
  rw [barContent, barContent, hslice, withResult_ite, withResult_ite]
  cases barSlice w s <;> rfl

theorem blind_takeBarsContent (w : Word) (j : Nat) : Blind (takeBarsContent w j) := by
  intro r s
  refine withResult_bind (blind_barContent w s.idx j r { s with sumIn := csAdd s.sumIn w }) fun _ t => ?_
  rw [copyWord_eq_report, copyWord_eq_report]
  rfl

theorem blind_takeBarsChecksum (c : Word) (j : Nat) : Blind (takeBarsChecksum c j) := by
  intro r s
  refine withResult_bind (blind_csVerify c s.sumIn (some j) r s) fun _ t => ?_
  simp only [withResult_ite, copyWord_eq_report]
  rfl

/-! ### After a Bars block -/

theorem blind_endOfTape (g : Nat) : Blind (endOfTape g) := by
  intro r s
  refine withResult_bind (blind_fuRead r s) fun _ t => ?_
  simp only [copyGap_eq_report]
  rfl

theorem blind_afterBars (p : Bool × Nat) : Blind (afterBars p) := by
  intro r s
  have hnext : nextVoice p.2 (setResult r s) = setResult r (nextVoice p.2 s) := by
    rw [nextVoice_eq_report, nextVoice_eq_report]
    rfl
  simp only [afterBars, withResult_ite, hnext, blind_endOfTape p.2 r s]
  rfl

end Sys2Proof.Machine

/-! SUPPORT. What the machine does when its step is repeated at the word level, and the step that takes the word due in
a run: it reads the word and does with it what the block operation does (R191 to R195, R264; log 6). -/

namespace Sys2Proof.Machine

variable {α : Type} {s t : State} {v : BitVec 3}

/-! ### Steps repeated -/

/-- Repeating the step from `s` answers this outcome after some number of steps and ever after. -/
def Settles (s : State) (o : Out) : Prop := ∃ n, ∀ k, n ≤ k → core.run k s = o

theorem run_succ_of_next {k : Nat} (h : step s = .next t) : core.run (k + 1) s = core.run k t := by
  have hstep : core.step s = .next t := h
  simp only [Host.Core.run, hstep]

theorem run_succ_of_fault {k : Nat} {f : Fault} (h : step s = .fault f) : core.run (k + 1) s = .fault f := by
  have hstep : core.step s = .fault f := h
  simp only [Host.Core.run, hstep]

theorem Settles.of_next {o : Out} (h : Settles t o) (hs : step s = .next t) : Settles s o := by
  obtain ⟨n, hn⟩ := h
  refine ⟨n + 1, fun k hk => ?_⟩
  obtain ⟨k, rfl⟩ := Nat.exists_eq_add_of_le' (Nat.le_of_add_left_le hk)
  exact (run_succ_of_next hs).trans (hn k (Nat.le_of_succ_le_succ hk))

theorem settles_of_fault {f : Fault} (hs : step s = .fault f) : Settles s (.fault f) := by
  refine ⟨1, fun k hk => ?_⟩
  obtain ⟨k, rfl⟩ := Nat.exists_eq_add_of_le' hk
  exact run_succ_of_fault hs

/-- A machine that a step leaves as it is stays so. -/
theorem settles_of_fixed (hs : step s = .next s) : Settles s (.next s) := by
  have hrun : ∀ k, core.run k s = .next s := fun k => by
    induction k with
    | zero => rfl
    | succ k ih => exact (run_succ_of_next hs).trans ih
  exact ⟨0, fun k _ => hrun k⟩

theorem step_word (hl : s.level = .word) : step s = (fetchWord s).out := by rw [step_eq, fetch_of_word hl]

/-- At the word level nothing happens once the run has ended or a fault is held (log 7). -/
theorem settles_of_over (hl : s.level = .word) (h : ¬ Ready s) : Settles s (.next s) := by
  refine settles_of_fixed ?_
  rw [step_word hl, fetchWord, if_neg fun hrun => h hrun.2]
  rfl

/-! ### Words as items -/

/-- A tempo word is the tag and its parameter (R96, R97). -/
theorem tempoWord_tempo15 {w : Word} (h : classify w = .tempo) : tempoWord (tempo15 w) = w := by
  have hparam : (tempo15 w).toNat = (w &&& Config.tempoMask).toNat := by
    rw [tempo15, BitVec.toNat_setWidth, toNat_and_tempoMask]
    exact Nat.mod_mod _ _
  rw [← encodeTempo_toNat_eq_tempoWord, hparam, encodeTempo_and_tempoMask h]

/-- A word is the note row that its bits spell (R99). -/
theorem contentOf_noteInstr (w : Word) : contentOf (noteInstr w) = some w := by
  have hword : noteWord (w.extractLsb' 16 2) (w.extractLsb' 15 1) (w.extractLsb' 13 2) (w.extractLsb' 12 1)
      (w.extractLsb' 7 5) (w.extractLsb' 0 7) = w := by
    rw [noteWord]
    iterate 5 rw [BitVec.extractLsb'_append_extractLsb'_eq_extractLsb' (by rfl)]
    exact BitVec.extractLsb'_eq_self
  exact congrArg some hword

/-- The item that a content word of a Notes block decodes to is that word (R98). -/
theorem contentOf_notesContent (w : Word) : contentOf (decodeWordAt .notesContent w) = some w := by
  unfold decodeWordAt
  cases hc : classify w with
  | sep => exact congrArg some (classify_eq_sep_iff.1 hc).symm
  | tempo => exact congrArg some (tempoWord_tempo15 hc)
  | note => exact contentOf_noteInstr w

theorem notesContent_ne_index (w k : Word) : decodeWordAt .notesContent w ≠ .index k := by
  unfold decodeWordAt
  cases classify w <;> nofun

/-- The item that a content word of a Bars block decodes to is a separator or an index word (R103). -/
theorem barsContent_item (w : Word) :
    (decodeWordAt .barsContent w = .sep ∧ w = Config.sep) ∨ decodeWordAt .barsContent w = .index w := by
  by_cases h : w = Config.sep
  · exact .inl ⟨if_pos h, h⟩
  · exact .inr (if_neg h)

/-! ### The word due -/

/-- What the word at a position of a block yields: the peek at the end of a Bars block, nothing elsewhere (R194). -/
abbrev Yield : WordPos → Type
  | .barsChecksum => Bool × Nat
  | _ => Unit

/-- The result it leaves at the port. -/
def yieldResult : (pos : WordPos) → Yield pos → Result
  | .barsChecksum => fun p => .peek p.1 p.2
  | .notesCount | .notesContent | .notesChecksum | .barsCount | .barsContent => fun _ => .none

/-- What a block operation does with the word read at a position (R192, R194). -/
def takeAt : (pos : WordPos) → BlockWord → State → Act (Yield pos)
  | .notesCount, b, s => .done () (takeNotesCount b.w b.g s)
  | .notesContent, b, s => takeNotesContent b.w b.j s
  | .notesChecksum, b, s => takeNotesChecksum b.w b.j s
  | .barsCount, b, s => takeBarsCount b.w b.g b.j s
  | .barsContent, b, s => takeBarsContent b.w b.j s
  | .barsChecksum, b, s => takeBarsChecksum b.w b.j s

/-- The part of a block operation from one word to the next: the word read and taken, in a block begun if it is the
first. -/
def dueWord (pos : WordPos) (s : State) : Act (Yield pos) := (readBlockWord (beginBlock pos s)).bind (takeAt pos)

theorem takeAt_sound (pos : WordPos) (b : BlockWord) (s : State) : Sound s (takeAt pos b s) := by
  cases pos with
  | notesCount => exact sound_done _ (quiet_takeNotesCount b.w b.g s)
  | notesContent => exact takeNotesContent_sound b.w b.j s
  | notesChecksum => exact takeNotesChecksum_sound b.w b.j s
  | barsCount => exact takeBarsCount_sound b.w b.g b.j s
  | barsContent => exact takeBarsContent_sound b.w b.j s
  | barsChecksum => exact takeBarsChecksum_sound b.w b.j s

theorem dueWord_sound (pos : WordPos) (s : State) : Sound s (dueWord pos s) :=
  (quiet_beginBlock pos s).sound (sound_bind (readBlockWord_sound _) fun b t _ => takeAt_sound pos b t)

theorem blind_takeAt (pos : WordPos) (b : BlockWord) : Blind (takeAt pos b) := by
  cases pos with
  | notesCount => exact fun r s => congrArg (Act.done ()) (takeNotesCount_setResult b.w b.g r s)
  | notesContent => exact blind_takeNotesContent b.w b.j
  | notesChecksum => exact blind_takeNotesChecksum b.w b.j
  | barsCount => exact blind_takeBarsCount b.w b.g b.j
  | barsContent => exact blind_takeBarsContent b.w b.j
  | barsChecksum => exact blind_takeBarsChecksum b.w b.j

theorem blind_dueWord (pos : WordPos) : Blind (dueWord pos) := by
  intro r s
  have hbegin : beginBlock pos (setResult r s) = setResult r (beginBlock pos s) := by cases pos <;> rfl
  rw [dueWord, hbegin]
  exact withResult_bind (blind_readBlockWord r _) fun b t => blind_takeAt pos b r t

/-- The registers that a word leaves as they were once it is read, beside those of `Quiet`. -/
def wordRegs (s : State) : BitVec 2 × Nat × BitVec 3 := (s.fcnt, s.gap, s.voice)

theorem takeAt_wordRegs {pos : WordPos} {b : BlockWord} {a : Yield pos} (h : takeAt pos b s = .done a t) :
    wordRegs t = wordRegs s := by
  cases pos with
  | notesCount =>
    injection h with _ h
    rw [← h, takeNotesCount_eq]
    rfl
  | notesContent =>
    obtain ⟨wOut, u, hu, ht⟩ := bind_eq_done.1 h
    obtain ⟨e, rfl⟩ := noteContent_done hu
    injection ht with _ ht
    subst ht
    simp [wordRegs]
  | barsCount =>
    simp only [takeAt, takeBarsCount] at h
    split at h
    · cases h
    · injection h with _ h
      subst h
      simp [wordRegs]
  | barsContent =>
    obtain ⟨_, u, hu, ht⟩ := bind_eq_done.1 h
    obtain ⟨e, rfl⟩ := barContent_done hu
    injection ht with _ ht
    subst ht
    simp [wordRegs]
  | notesChecksum | barsChecksum =>
    obtain ⟨_, u, hu, ht⟩ := bind_eq_done.1 h
    obtain rfl := csVerify_done hu
    injection ht with _ ht
    subst ht
    simp [wordRegs]

/-! ### Between two words -/

/-- A run taken word by word stands between two words, in this voice. -/
structure Between (v : BitVec 3) (s : State) : Prop where
  level : s.level = .word
  running : s.status.running = true
  ready : Ready s
  block : (blockRegs s).Ok
  noBits : s.fcnt = 0#2
  noGap : s.gap = 0
  voice : s.voice = v

theorem Between.withResult (h : Between v s) (r : Result) : Between v (setResult r s) :=
  ⟨h.level, h.running, h.ready, h.block, h.noBits, h.noGap, h.voice⟩

/-- What the block is begun with leaves FU alone, and `VOICE`. -/
theorem beginBlock_wordRegs (pos : WordPos) (s : State) : wordRegs (beginBlock pos s) = wordRegs s := by
  cases pos <;> rfl

/-- Where the word due was read, a word stood on the tape (R191). -/
theorem Between.readBlockWord_done {pos : WordPos} {b : BlockWord} (h : Between v s)
    (hb : readBlockWord (beginBlock pos s) = .done b t) :
    ∃ x : InkedWord, b = { w := x.w, g := x.blanks.length, j := s.widx } ∧ t = takeWord x (beginBlock pos s) := by
  have hregs := beginBlock_wordRegs pos s
  have hnoBits : (beginBlock pos s).fcnt = 0#2 := (congrArg Prod.fst hregs).trans h.noBits
  have hnoGap : (beginBlock pos s).gap = 0 := (congrArg (·.2.1) hregs).trans h.noGap
  have hwidx : (beginBlock pos s).widx = s.widx := by cases pos <;> rfl
  obtain ⟨x, _, _, rfl, rfl⟩ := Machine.readBlockWord_done ⟨hnoBits, rfl⟩ hnoGap hb
  exact ⟨x, by rw [hnoGap, Nat.zero_add, hwidx], rfl⟩

/-- After the word due the run stands between two words again. -/
theorem Between.after_due {pos : WordPos} {a : Yield pos} (h : Between v s) (hx : dueWord pos s = .done a t)
    (hok : (blockRegs t).Ok) : Between v t := by
  obtain ⟨b, u, hb, ht⟩ := bind_eq_done.1 hx
  obtain ⟨x, -, rfl⟩ := h.readBlockWord_done hb
  have hq : Quiet s t := (dueWord_sound pos s).of_done hx
  have hregs : wordRegs t = (s.fcnt, 0, s.voice) := by
    rw [takeAt_wordRegs ht]
    cases pos <;> rfl
  obtain ⟨hfcnt, hgap, hvoice⟩ : t.fcnt = s.fcnt ∧ t.gap = 0 ∧ t.voice = s.voice := by simpa [wordRegs] using hregs
  have hfault : t.fault = s.fault := congrArg FlagRegs.fault hq.flags
  exact
    { level := hq.level.trans h.level
      running := hq.status ▸ h.running
      ready := ⟨hfault.trans h.ready.1, hq.status ▸ h.ready.2⟩
      block := hok
      noBits := hfcnt.trans h.noBits
      noGap := hgap
      voice := hvoice.trans h.voice }

/-- The word read is executed, as an instruction of its own, as the block operation takes it (R192 to R195). -/
theorem Between.exec_due {pos : WordPos} (h : Between v s) (hp : position s = some pos) (x : InkedWord) :
    exec (decodeWordAt pos x.w) (takeWord x (beginBlock pos s)) =
      finish (yieldResult pos)
        (takeAt pos { w := x.w, g := x.blanks.length, j := s.widx } (takeWord x (beginBlock pos s))) := by
  have hwordGap : s.gap + x.blanks.length = x.blanks.length := by rw [h.noGap, Nat.zero_add]
  cases pos with
  | notesCount =>
    have hseq : s.seq = .expectLeaderGap ∨ s.seq = .expectNotesBlock := position_due hp
    have hexec := exec_count_notes (s := takeWord x (beginNotes s)) h.ready h.running hseq x.w
    rw [← takeNotesCount_eq] at hexec
    have hg : (takeWord x (beginNotes s)).wordGap = x.blanks.length := hwordGap
    rw [hg] at hexec
    exact hexec
  | barsCount =>
    have hseq : s.seq = .expectGap1 := position_due hp
    have hvalid : s.notesValid = true := h.block.bufferHeld.2 (.inl hseq)
    have hexec := exec_count_bars (s := takeWord x (beginBars s)) h.ready h.running hseq hvalid x.w
    have hg : (takeWord x (beginBars s)).wordGap = x.blanks.length := hwordGap
    rw [hg] at hexec
    exact hexec
  | notesContent =>
    exact exec_notesContent (s := takeWord x s) h.ready h.running (contentOf_notesContent x.w) hp
      (notesContent_ne_index x.w)
  | barsContent => exact exec_barsContent (s := takeWord x s) h.ready h.running (barsContent_item x.w) hp
  | notesChecksum => exact exec_checksum_notes (s := takeWord x s) h.ready h.running hp x.w
  | barsChecksum => exact exec_checksum_bars (s := takeWord x s) h.ready h.running hp x.w

/-- A step takes the word due as the block operation does, a fault included. -/
theorem Between.step_due {pos : WordPos} (h : Between v s) (hp : position s = some pos) :
    step s = finish (yieldResult pos) (dueWord pos s) := by
  have hvalid : pos = .barsCount → s.notesValid = true := by
    rintro rfl
    exact h.block.bufferHeld.2 (.inl (position_due hp))
  have hdue : fetchWord s = fetchDueWord pos s := by rw [fetchWord, if_pos ⟨h.running, h.ready⟩, hp]
  have hnotes : ¬ (pos = .barsCount ∧ s.notesValid = false) := fun ⟨hpos, hv⟩ => by simp [hvalid hpos] at hv
  rw [step_word h.level, hdue, fetchDueWord, if_pos h.noBits, if_neg hnotes, dueWord]
  cases hb : readBlockWord (beginBlock pos s) with
  | done b t =>
    obtain ⟨x, rfl, rfl⟩ := h.readBlockWord_done hb
    exact h.exec_due hp x
  | raised t => rfl
  | stuck f => rfl

end Sys2Proof.Machine

/-! SUPPORT. A run taken word by word: block by block and voice by voice, each word and each decision after a Bars block
is one step, and the last leaves the outcome of the whole run (R232, R264). -/

namespace Sys2Proof.Machine

variable {α : Type} {s t : State} {v : BitVec 3}

/-! ### Parts of a run as steps -/

theorem Raised.fault_ne_zero (h : Raised s t) : t.fault ≠ 0#4 := by
  obtain ⟨hlow, -⟩ := h.fault
  intro h0
  simp [h0] at hlow

/-- Whatever result stands in `s`, the steps from there come to the outcome of a run that has this part still before
it. -/
def RunsAs (s : State) (x : Act (BitVec 3)) : Prop := ∀ r, Settles (setResult r s) (finish Result.runDone x)

/-- One step, whatever result stands in `s`, does this part of a run and delivers what it yields. -/
structure OneStep (f : α → Result) (s : State) (x : Act α) : Prop where
  level : s.level = .word
  raised : x.Ends (fun _ _ => True) (Raised s)
  step : ∀ r, step (setResult r s) = finish f x

/-- A part done in one step, then the rest of the run; a fault it raises is the outcome of the run. -/
theorem OneStep.runsAs_bind {f : α → Result} {x : Act α} {k : α → State → Act (BitVec 3)} (h : OneStep f s x)
    (hk : ∀ a t, x = .done a t → Settles (setResult (f a) t) (finish Result.runDone (k a t))) :
    RunsAs s (x.bind k) := by
  intro r
  have hstep := h.step r
  cases hx : x with
  | done a t =>
    rw [hx] at hstep
    exact (hk a t hx).of_next hstep
  | raised t =>
    rw [hx] at hstep
    have hr : Raised s t := h.raised.of_raised hx
    have hlevel : t.level = .word := (congrArg HostRegs.level hr.host).trans h.level
    have hfault : t.fault ≠ 0#4 := hr.fault_ne_zero
    exact (settles_of_over (s := faultResult t) hlevel fun hready => hfault hready.1).of_next hstep
  | stuck g =>
    rw [hx] at hstep
    exact settles_of_fault hstep

/-- The word due is one step. -/
theorem Between.oneStep_due {pos : WordPos} (h : Between v s) (hp : position s = some pos) :
    OneStep (yieldResult pos) s (dueWord pos s) where
  level := h.level
  raised := (dueWord_sound pos s).mono (fun _ _ _ _ => trivial) fun _ => id
  step r := by rw [(h.withResult r).step_due hp, blind_dueWord pos r s, finish_withResult]

/-- The word due, then the rest of the run. -/
theorem Between.runsAs_due {pos : WordPos} {k : Yield pos → State → Act (BitVec 3)} (h : Between v s)
    (hp : position s = some pos) (hk : ∀ a t, dueWord pos s = .done a t → RunsAs t (k a t)) :
    RunsAs s ((dueWord pos s).bind k) :=
  (h.oneStep_due hp).runsAs_bind fun a t ha => hk a t ha _

/-- The words of a block after its count word, each one step, then the rest of the run: `P` holds where this many
content words are still due. -/
theorem runsAs_blockTail {take : Word → Nat → State → Act Unit} {close : Word → Nat → State → Act α}
    {k : α → State → Act (BitVec 3)} {P : Nat → State → Prop}
    (hcontent : ∀ n u, P (n + 1) u → ∀ k' : Unit → State → Act (BitVec 3), (∀ t, P n t → RunsAs t (k' () t)) →
      RunsAs u (((readBlockWord u).bind fun b t => take b.w b.j t).bind k'))
    (hclose : ∀ u, P 0 u → RunsAs u (((readBlockWord u).bind fun b t => close b.w b.j t).bind k))
    {n : Nat} (h : P n s) : RunsAs s ((blockTail take close n s).bind k) := by
  induction n generalizing s with
  | zero => exact hclose s h
  | succ n ih =>
    have hwords : (blockTail take close (n + 1) s).bind k =
        ((readBlockWord s).bind fun b t => take b.w b.j t).bind fun _ t => (blockTail take close n t).bind k := by
      simp only [blockTail, bind_assoc]
    rw [hwords]
    exact hcontent n s h _ fun t ht => ih ht

/-- Where the word due was taken, the read before it left the block structure alone. -/
theorem dueWord_done {pos : WordPos} {a : Yield pos} (h : dueWord pos s = .done a t) :
    ∃ b u, takeAt pos b u = .done a t ∧ blockRegs u = blockRegs (beginBlock pos s) := by
  obtain ⟨b, u, hb, ht⟩ := bind_eq_done.1 h
  exact ⟨b, u, ht, readBlockWord_blockRegs hb⟩

/-! ### A Notes block -/

theorem parseNotes_eq_due (s : State) :
    parseNotes s = (dueWord .notesCount s).bind fun _ t =>
      blockTail takeNotesContent takeNotesChecksum t.count.toNat t := by
  simp only [parseNotes, notesLoop_bind, dueWord, bind_assoc]
  rfl

/-- A Notes block begun, with this many content words still to come (R192). -/
structure NotesBegun (v : BitVec 3) (n : Nat) (s : State) : Prop extends Between v s where
  mid : midNotes s
  left : s.idx + n = s.count.toNat

theorem Between.notesBegun (h : Between v s) (hx : dueWord .notesCount s = .done () t) :
    NotesBegun v t.count.toNat t := by
  obtain ⟨b, u, ht, hu⟩ := dueWord_done hx
  injection ht with _ ht
  obtain ⟨hok, hmid, hidx⟩ := takeNotesCount_ok b.w b.g (congrArg BlockRegs.blk hu) (congrArg BlockRegs.idx hu)
    (congrArg BlockRegs.notes hu) (congrArg BlockRegs.notesValid hu)
  rw [ht] at hok hmid hidx
  exact ⟨h.after_due hx hok, hmid, by rw [hidx, Nat.zero_add]⟩

theorem NotesBegun.position_eq {n : Nat} (h : NotesBegun v n s) :
    position s = if n = 0 then some .notesChecksum else some .notesContent := by
  have hleft := h.left
  have hdue : s.idx < s.count.toNat ↔ ¬n = 0 := by omega
  rw [position_of_midNotes h.running h.mid, if_congr hdue rfl rfl, ite_not]

theorem NotesBegun.content {n : Nat} (h : NotesBegun v (n + 1) s) (hx : dueWord .notesContent s = .done () t) :
    NotesBegun v n t := by
  obtain ⟨b, u, ht, hu⟩ := dueWord_done hx
  have hidx : u.idx = s.idx := congrArg BlockRegs.idx hu
  have hcount : u.count = s.count := congrArg BlockRegs.count hu
  have hmid : midNotes u := ⟨(congrArg BlockRegs.seq hu).trans h.mid.1, (congrArg BlockRegs.blk hu).trans h.mid.2⟩
  have hleft := h.left
  obtain ⟨hok, hmidt, hidxt, hcountt⟩ := takeNotesContent_ok ht (hu ▸ h.block) hmid (by rw [hidx, hcount]; omega)
  exact ⟨h.after_due hx hok, hmidt, by rw [hidxt, hcountt, hidx, hcount]; omega⟩

theorem NotesBegun.checksum (h : NotesBegun v 0 s) (hx : dueWord .notesChecksum s = .done () t) :
    Between v t ∧ t.seq = .expectGap1 := by
  obtain ⟨b, u, ht, hu⟩ := dueWord_done hx
  have hidx : u.idx = s.idx := congrArg BlockRegs.idx hu
  have hcount : u.count = s.count := congrArg BlockRegs.count hu
  have hmid : midNotes u := ⟨(congrArg BlockRegs.seq hu).trans h.mid.1, (congrArg BlockRegs.blk hu).trans h.mid.2⟩
  obtain ⟨hok, hseq⟩ := takeNotesChecksum_ok ht (hu ▸ h.block) hmid (by rw [hidx, hcount]; exact h.left)
  exact ⟨h.after_due hx hok, hseq⟩

theorem NotesBegun.runsAs {n : Nat} {k : Unit → State → Act (BitVec 3)} (h : NotesBegun v n s)
    (hk : ∀ t, Between v t → t.seq = .expectGap1 → RunsAs t (k () t)) :
    RunsAs s ((blockTail takeNotesContent takeNotesChecksum n s).bind k) := by
  refine runsAs_blockTail (P := NotesBegun v) (fun n u hu k' hk' => ?_) (fun u hu => ?_) h
  · exact hu.runsAs_due hu.position_eq fun _ t ht => hk' t (hu.content ht)
  · refine hu.runsAs_due hu.position_eq fun _ t ht => ?_
    obtain ⟨hb, hseq⟩ := hu.checksum ht
    exact hk t hb hseq

/-- A Notes block, then the rest of the run. -/
theorem Between.runsAs_parseNotes {k : Unit → State → Act (BitVec 3)} (h : Between v s)
    (hp : position s = some .notesCount) (hk : ∀ t, Between v t → t.seq = .expectGap1 → RunsAs t (k () t)) :
    RunsAs s ((parseNotes s).bind k) := by
  rw [parseNotes_eq_due, bind_assoc]
  exact h.runsAs_due hp fun _ t ht => (h.notesBegun ht).runsAs hk

/-! ### A Bars block -/

theorem parseBars_eq_due (s : State) :
    parseBars s = (dueWord .barsCount s).bind fun _ t =>
      blockTail takeBarsContent takeBarsChecksum t.count.toNat t := by
  simp only [parseBars_eq, dueWord, bind_assoc]
  rfl

/-- A Bars block begun, with this many content words still to come (R194). -/
structure BarsBegun (v : BitVec 3) (n : Nat) (s : State) : Prop extends Between v s where
  mid : s.seq = .expectBarsBlock
  left : s.idx + n = s.count.toNat

theorem Between.barsBegun (h : Between v s) (hseq : s.seq = .expectGap1) (hx : dueWord .barsCount s = .done () t) :
    BarsBegun v t.count.toNat t := by
  obtain ⟨b, u, ht, hu⟩ := dueWord_done hx
  obtain ⟨hok, hmid, hidx⟩ := takeBarsCount_ok ht (hu ▸ beginBars_ok h.block hseq)
    ((congrArg BlockRegs.seq hu).trans hseq) (congrArg BlockRegs.blk hu) (congrArg BlockRegs.idx hu)
  exact ⟨h.after_due hx hok, hmid, by rw [hidx, Nat.zero_add]⟩

theorem BarsBegun.position_eq {n : Nat} (h : BarsBegun v n s) :
    position s = if n = 0 then some .barsChecksum else some .barsContent := by
  have hleft := h.left
  have hdue : s.idx < s.count.toNat ↔ ¬n = 0 := by omega
  rw [position_of_expectBarsBlock h.running h.mid, if_congr hdue rfl rfl, ite_not]

theorem BarsBegun.content {n : Nat} (h : BarsBegun v (n + 1) s) (hx : dueWord .barsContent s = .done () t) :
    BarsBegun v n t := by
  obtain ⟨b, u, ht, hu⟩ := dueWord_done hx
  have hidx : u.idx = s.idx := congrArg BlockRegs.idx hu
  have hcount : u.count = s.count := congrArg BlockRegs.count hu
  have hleft := h.left
  obtain ⟨hok, hmid, hidxt, hcountt⟩ := takeBarsContent_ok ht (hu ▸ h.block) ((congrArg BlockRegs.seq hu).trans h.mid)
    (by rw [hidx, hcount]; omega)
  exact ⟨h.after_due hx hok, hmid, by rw [hidxt, hcountt, hidx, hcount]; omega⟩

/-- The checksum word of a Bars block yields the peek that the decision of `run` rests on (R194, R202). -/
theorem takeBarsChecksum_yields {c : Word} {j : Nat} {p : Bool × Nat} (h : takeBarsChecksum c j s = .done p t) :
    p = fuPeek t := by
  obtain ⟨_, u, -, ht⟩ := bind_eq_done.1 h
  injection ht with hp ht
  exact hp.symm.trans (congrArg fuPeek ht)

theorem BarsBegun.checksum {p : Bool × Nat} (h : BarsBegun v 0 s) (hx : dueWord .barsChecksum s = .done p t) :
    Between v t ∧ t.seq = .expectGap2 ∧ p = fuPeek t := by
  obtain ⟨b, u, ht, hu⟩ := dueWord_done hx
  obtain ⟨hok, hseq⟩ := takeBarsChecksum_ok ht (hu ▸ h.block) ((congrArg BlockRegs.seq hu).trans h.mid)
  exact ⟨h.after_due hx hok, hseq, takeBarsChecksum_yields ht⟩

theorem BarsBegun.runsAs {n : Nat} {k : Bool × Nat → State → Act (BitVec 3)} (h : BarsBegun v n s)
    (hk : ∀ t, Between v t → t.seq = .expectGap2 → RunsAs t (k (fuPeek t) t)) :
    RunsAs s ((blockTail takeBarsContent takeBarsChecksum n s).bind k) := by
  refine runsAs_blockTail (P := BarsBegun v) (fun n u hu k' hk' => ?_) (fun u hu => ?_) h
  · exact hu.runsAs_due hu.position_eq fun _ t ht => hk' t (hu.content ht)
  · refine hu.runsAs_due hu.position_eq fun p t ht => ?_
    obtain ⟨hb, hseq, rfl⟩ := hu.checksum ht
    exact hk t hb hseq

/-- A Bars block, then the rest of the run. -/
theorem Between.runsAs_parseBars {k : Bool × Nat → State → Act (BitVec 3)} (h : Between v s)
    (hseq : s.seq = .expectGap1) (hk : ∀ t, Between v t → t.seq = .expectGap2 → RunsAs t (k (fuPeek t) t)) :
    RunsAs s ((parseBars s).bind k) := by
  have hp : position s = some .barsCount := by simp [position, h.running, hseq]
  rw [parseBars_eq_due, bind_assoc]
  exact h.runsAs_due hp fun _ t ht => (h.barsBegun hseq ht).runsAs hk

/-! ### After a Bars block -/

/-- The decision after a Bars block is one step (R232). -/
theorem Between.oneStep_afterBars (h : Between v s) (hseq : s.seq = .expectGap2) :
    OneStep decisionResult s (afterBars (fuPeek s) s) where
  level := h.level
  raised := (afterBars_ends (fuPeek s) s).mono (fun _ _ _ _ => trivial) fun _ => id
  step r := by
    have hp : position (setResult r s) = none := by simp [position, hseq]
    have hrun : (setResult r s).status.running = true ∧ Ready (setResult r s) := ⟨h.running, h.ready⟩
    have hs : (setResult r s).seq = .expectGap2 := hseq
    have hpeek : fuPeek (setResult r s) = fuPeek s := rfl
    rw [step_word (s := setResult r s) h.level, fetchWord, if_pos hrun, hp]
    simp only [if_pos hs, Fetched.out]
    rw [hpeek, blind_afterBars (fuPeek s) r s, finish_withResult]

/-- A decision that ends the run sets `DONE` (R232, R236). -/
theorem afterBars_ended {p : Bool × Nat} {a : BitVec 3} (h : afterBars p s = .done (some a) t) :
    t.status.done = true := by
  unfold afterBars at h
  split at h
  · split at h <;> cases h
  · obtain ⟨_, u, -, ht⟩ := bind_eq_done.1 h
    injection ht with _ ht
    exact ht ▸ rfl

theorem blockRegs_nextVoice (g : Nat) (s : State) :
    blockRegs (nextVoice g s) = { blockRegs s with seq := .expectNotesBlock } := by
  rw [nextVoice_eq_report]
  rfl

/-- Before the next voice the block structure is in order (R194, R232). -/
theorem nextVoice_ok (g : Nat) (hs : (blockRegs s).Ok) (hseq : s.seq = .expectGap2) :
    (blockRegs (nextVoice g s)).Ok := by
  have hblk : s.blk = .bars := hs.barsBegun (.inr hseq)
  rw [blockRegs_nextVoice]
  exact
    { indexInBlock := hs.indexInBlock
      notesCells := by simpa [blockRegs, BlockRegs.mid, hseq, hblk] using hs.notesCells
      notesCounted := by simp [blockRegs, hblk]
      barsBegun := nofun
      bufferHeld := by simpa [blockRegs, hseq] using hs.bufferHeld }

/-- Before the next voice the run stands between two words, and a count word is due (R232). -/
theorem Between.nextVoice_due (g : Nat) (h : Between v s) (hseq : s.seq = .expectGap2) :
    Between (v + 1#3) (nextVoice g s) ∧ position (nextVoice g s) = some .notesCount := by
  have hok := nextVoice_ok g h.block hseq
  have hblk : s.blk = .bars := h.block.barsBegun (.inr hseq)
  rw [nextVoice_eq_report] at hok ⊢
  refine ⟨⟨h.level, h.running, h.ready, hok, h.noBits, h.noGap, congrArg (· + 1#3) h.voice⟩, ?_⟩
  simp [position, report, h.running, hblk]

/-- A decision to go on is the next voice, and not after the last (R232). -/
theorem afterBars_goesOn {p : Bool × Nat} (h : afterBars p s = .done none t) :
    s.voice ≠ lastVoice ∧ t = nextVoice p.2 s := by
  refine ⟨fun hv => afterBars_lastVoice hv h, ?_⟩
  obtain ⟨more, g⟩ := p
  cases more with
  | true => exact (afterBars_more h).2
  | false =>
    obtain ⟨_, u, -, ht⟩ := bind_eq_done.1 h
    cases ht

/-! ### The run -/

/-- What follows the decision after a Bars block, at most `n` passes (R232). -/
def decided (n : Nat) : Option (BitVec 3) → State → Act (BitVec 3)
  | some a, s => .done a s
  | none, s => runVoices n s

theorem runVoices_succ (n : Nat) (s : State) :
    runVoices (n + 1) s = (parseNotes s).bind fun _ s1 => (parseBars s1).bind fun p s2 =>
      (afterBars p s2).bind (decided n) := by
  have hpass : runVoices (n + 1) s = (runVoice s).bind (decided n) := by
    rw [runVoices]
    congr 1
    funext o t
    cases o <;> rfl
  simp only [hpass, runVoice, bind_assoc]

/-- One pass of the loop of `run`, then the passes of the voices that follow (R232). -/
theorem Between.runsAs_pass {n : Nat} (h : Between v s) (hp : position s = some .notesCount)
    (hk : ∀ t, v ≠ lastVoice → Between (v + 1#3) t → position t = some .notesCount → RunsAs t (runVoices n t)) :
    RunsAs s (runVoices (n + 1) s) := by
  rw [runVoices_succ]
  refine h.runsAs_parseNotes hp fun t ht hgap1 => ht.runsAs_parseBars hgap1 fun u hu hgap2 => ?_
  refine (hu.oneStep_afterBars hgap2).runsAs_bind fun o w hw => ?_
  cases o with
  | some a =>
    have hlevel : w.level = .word :=
      (congrArg HostRegs.level ((afterBars_steady _ u).of_done hw : Steady u w).host).trans hu.level
    have hdone := afterBars_ended hw
    exact settles_of_over (s := setResult (.runDone a) w) hlevel fun hready =>
      absurd (hdone.symm.trans hready.2) nofun
  | none =>
    obtain ⟨hlast, rfl⟩ := afterBars_goesOn hw
    obtain ⟨hnext, hdue⟩ := hu.nextVoice_due (fuPeek u).2 hgap2
    exact hk _ (hu.voice ▸ hlast) hnext hdue _

/-- Voice by voice; the pass of voice 4 is the last (R232). -/
theorem Between.runsAs_runVoices {n : Nat} (h : Between v s) (hp : position s = some .notesCount)
    (hn : v.toNat + n = 4) : RunsAs s (runVoices (n + 1) s) := by
  induction n generalizing v s with
  | zero => exact h.runsAs_pass hp fun _ hlast => absurd (BitVec.eq_of_toNat_eq hn) hlast
  | succ n ih =>
    refine h.runsAs_pass hp fun t _ ht hdue => ih ht hdue ?_
    rw [BitVec.toNat_add]
    change (v.toNat + 1) % 8 + n = 4
    omega

/-- From reset the run stands before its first word (R264). -/
theorem between_of_atReset (hr : Ready s) (ha : atReset s) (hl : s.level = .word) :
    Between 1#3 (setRunning s) ∧ position (setRunning s) = some .notesCount := by
  have hblock : blockRegs (setRunning s) = blockRegs (resetRegisters s) := by rw [ha]; rfl
  have hseq : s.seq = .expectLeaderGap := by rw [ha]; rfl
  have hdue := voiceDue_of_atReset ha
  refine ⟨⟨hl, rfl, hr, ?_, hdue.between, hdue.noGap, hdue.voice⟩, ?_⟩
  · rw [hblock]
    exact (alive_resetRegisters s).block.ok
  · simp [position, hseq]

end Sys2Proof.Machine

/-! SUPPORT. The statement about a run taken word by word. -/

namespace Sys2Proof.Proofs

open Sys2Proof.Machine

/-- Settles O46: from reset the run stands before its first word, and goes on part by part. -/
theorem steppedRunEndsAsStart : Obligations.SteppedRunEndsAsStart := by
  intro s hr ha hl
  obtain ⟨hb, hp⟩ := between_of_atReset hr ha hl
  have hrun : RunsAs (setRunning s) (runVoices Config.voices (setRunning s)) := hb.runsAs_runVoices (n := 3) hp rfl
  rw [exec_start hr ha]
  exact hrun s.result

end Sys2Proof.Proofs

/-! SUPPORT. The configuration operations, and what keeps a run from being accepted after any other operation (R261 to
R264, R303; log 14). -/

namespace Sys2Proof.Machine

variable {α : Type} {s t u : State} {i : Instr}

/-! ### The configuration operations -/

/-- Before a run a configuration operation writes what it writes (R261 to R263). -/
theorem configure_of_idle (hr : Ready s) (hidle : s.status.running = false) (u : State) :
    configure s u = .next (setResult .none u) := by
  rw [configure, accept_of_ready _ hr.1 hr.2, require_of _ _ hidle]

/-- During a run it is refused (R317). -/
theorem configure_of_running (hr : Ready s) (hrun : s.status.running = true) (u : State) :
    configure s u = .refused .running := by
  rw [configure, accept_of_ready _ hr.1 hr.2, require_of_not _ _ (by simp [hrun])]

/-- A configuration operation writes its registers of the configuration and nothing else (R261 to R263). -/
theorem exec_of_configures (hi : configures i = true) :
    ∃ mode en ovr n, exec i s = configure s { s with mode := mode, tempoEn := en, tempoOvr := ovr, gapLen := n } := by
  cases i with
  | setMode m => exact ⟨m, s.tempoEn, s.tempoOvr, s.gapLen, rfl⟩
  | setTempo en ovr => exact ⟨s.mode, en, ovr, s.gapLen, rfl⟩
  | setGapLen n => exact ⟨s.mode, s.tempoEn, s.tempoOvr, n, rfl⟩
  | _ => cases hi

/-! ### Engaged: what `atReset` excludes and only `coreReset` undoes -/

/-- An operation other than the configuration has been accepted since `coreReset`: outside a run it was remembered, or a
run has been started, which goes on, has ended or has faulted (R303; log 14). -/
def Engaged (s : State) : Prop :=
  s.driven = true ∨ s.status.running = true ∨ s.status.done = true ∨ s.fault ≠ 0#4

theorem not_engaged_of_atReset (hr : Ready s) (ha : atReset s) : ¬ Engaged s := by
  have hdriven : s.driven = false := by rw [ha]; rfl
  have hidle := atReset_not_running ha
  simp [Engaged, hdriven, hidle, hr.1, hr.2]

theorem engaged_drive (s : State) : Engaged (drive s) := by
  by_cases h : s.status.running = true
  · exact .inr (.inl h)
  · exact .inl (by simp [drive, h])

theorem Raised.engaged (h : Raised s t) : Engaged t := .inr (.inr (.inr h.fault_ne_zero))

theorem Engaged.onlyFu (h : Engaged s) (hu : onlyFu s t) : Engaged t := by
  rw [hu]
  exact h

theorem finish_engaged {f : α → Result} {x : Act α} (hx : x.Ends (fun _ => Engaged) Engaged)
    (h : finish f x = .next t) : Engaged t := finish_ends hx (fun _ _ => id) h

theorem setResult_engaged {r : Result} (hs : Engaged s) (h : (.next (setResult r s) : Out) = .next t) : Engaged t := by
  injection h with h
  subst h
  exact hs

/-! ### The operations of the units -/

theorem fuFrame_engaged (f : Frame) (h : Engaged s) : (fuFrame f s).Ends (fun _ => Engaged) Engaged :=
  (fuFrame_steady f s).mono (fun _ _ hx _ => h.onlyFu (fuFrame_onlyFu hx)) fun _ => Raised.engaged

theorem fuAtEnd_engaged (h : Engaged s) : (fuAtEnd s).Ends (fun _ => Engaged) Engaged := by
  unfold fuAtEnd
  split
  · exact h
  · exact Raised.engaged (s := s) (raised_raise s nofun rfl)

theorem fuRead_engaged (h : Engaged s) : (fuRead s).Ends (fun _ => Engaged) Engaged :=
  (fuRead_sound s).mono (fun _ _ hx _ => h.onlyFu (readFrames_onlyFu hx)) fun _ => Raised.engaged

theorem csVerify_engaged (e c : Word) (j : Option Nat) (h : Engaged s) :
    (csVerify e c j s).Ends (fun _ => Engaged) Engaged :=
  (csVerify_sound e c j s).mono (fun _ _ hx _ => csVerify_done hx ▸ h) fun _ => Raised.engaged

theorem nameArticulation_engaged (c : BitVec 4) (j : Option Nat) (w : Option Word) (h : Engaged s) :
    (nameArticulation c j w s).Ends (fun _ => Engaged) Engaged :=
  (nameArticulation_sound c j w s).mono (fun _ _ hx _ => nameArticulation_done hx ▸ h) fun _ => Raised.engaged

/-- The body of a unit's operation runs in a state that remembers it. -/
theorem acceptUnit_engaged {k : State → Out} (h : acceptUnit s k = .next t)
    (hk : Engaged (drive s) → k (drive s) = .next t → Engaged t) : Engaged t :=
  hk (engaged_drive s) (acceptUnit_eq_next.1 h).2.2

theorem frameItem_engaged {f : Frame} (h : acceptUnit s (fun s => finish frameResult (fuFrame f s)) = .next t) :
    Engaged t := acceptUnit_engaged h fun he h => finish_engaged (fuFrame_engaged f he) h

/-- Every operation of a unit that answers a next state leaves the machine engaged (R303; log 14). -/
theorem exec_unit_engaged (hi : unitOperation i = true) (h : exec i s = .next t) : Engaged t := by
  unfold exec at h
  cases i with
  | fuStep =>
    refine acceptUnit_engaged h fun he h => ?_
    split at h
    · exact finish_engaged (fuFrame_engaged (s := passFrame (drive s)) _ he) h
    · cases h
  | fuEnd =>
    refine acceptUnit_engaged h fun he h => ?_
    split at h
    · cases h
    · exact finish_engaged (fuAtEnd_engaged he) h
  | readWord =>
    refine acceptUnit_engaged h fun he h => ?_
    obtain ⟨_, h⟩ := require_eq_next.1 h
    exact finish_engaged (fuRead_engaged he) (require_eq_next.1 h).2
  | peekGap => exact acceptUnit_engaged h fun he h => setResult_engaged he (require_eq_next.1 h).2
  | verify e c =>
    refine acceptUnit_engaged h fun he h => finish_engaged (csVerify_engaged e c _ ?_) h
    split <;> exact he
  | articulationName c =>
    refine acceptUnit_engaged h fun he h => finish_engaged (nameArticulation_engaged c _ _ ?_) h
    split <;> exact he
  | barSlice k =>
    refine acceptUnit_engaged h fun he h => ?_
    obtain ⟨_, h⟩ := require_eq_next.1 h
    split at h
    · exact setResult_engaged he h
    · cases h
  | writeWord w =>
    exact acceptUnit_engaged h fun he h => setResult_engaged (s := putWord w (drive s)) he (require_eq_next.1 h).2
  | writeGap n =>
    exact acceptUnit_engaged h fun he h => setResult_engaged (s := putGap n (drive s)) he (require_eq_next.1 h).2
  | decodeFrame _ _ _ | add _ _ | classify _ | decode _ | pitchInfo _ | decodeTempo _ | encodeTempo _
  | encodeNote _ _ _ _ _ | encodeFrame _ => exact acceptUnit_engaged h setResult_engaged
  | _ => cases hi

/-! ### The parts of a run -/

/-- Quiet work in a run leaves the run going on; a fault leaves its code. -/
theorem engaged_of_running {x : Act α} (hrun : s.status.running = true) (hx : Sound s x) :
    x.Ends (fun _ => Engaged) Engaged :=
  hx.mono (fun _ _ _ hq => .inr (.inl (hq.status ▸ hrun))) fun _ => Raised.engaged

/-- A block operation or a word of the tape was accepted within a run (R192, R194). -/
theorem running_of_next {k : Out} (h : (accept s <| require (s.status.running = true) .notRunning k) = .next t) :
    s.status.running = true := (require_eq_next.1 (accept_eq_next.1 h).2.2).1

theorem parseNotesBlock_engaged (h : execParseNotesBlock s = .next t) : Engaged t :=
  finish_engaged (engaged_of_running (running_of_next h) (parseNotes_sound s)) (execParseNotesBlock_next h).2

theorem contentWord_engaged {w : Word} (hrun : s.status.running = true) (h : contentWord w s = .next t) :
    Engaged t := by
  rcases contentWord_next h with ⟨_, h⟩ | ⟨_, h⟩
  · exact finish_engaged (engaged_of_running hrun (takeNotesContent_sound w _ s)) h
  · exact finish_engaged (engaged_of_running hrun (takeBarsContent_sound w _ s)) h

theorem count_engaged {n : Word} (h : execCount n s = .next t) : Engaged t := by
  have hrun := running_of_next h
  obtain ⟨_, rfl | ⟨_, h⟩⟩ := execCount_next h
  · have hq : Quiet s _ := (quiet_beginNotes s).trans (quiet_takeNotesCount n s.wordGap _)
    exact .inr (.inl (hq.status ▸ hrun))
  · exact finish_engaged (engaged_of_running (s := beginBars s) hrun (takeBarsCount_sound n _ _ _)) h

theorem checksum_engaged {c : Word} (h : execChecksum c s = .next t) : Engaged t := by
  have hrun := running_of_next h
  obtain ⟨_, ⟨_, h⟩ | ⟨_, h⟩⟩ := execChecksum_next h
  · exact finish_engaged (engaged_of_running hrun (takeNotesChecksum_sound c _ s)) h
  · exact finish_engaged (engaged_of_running hrun (takeBarsChecksum_sound c _ s)) h

/-- A pass of the loop that ends the run sets `DONE` (R232). -/
theorem runVoice_ended {a : BitVec 3} (h : runVoice s = .done (some a) t) : t.status.done = true := by
  obtain ⟨_, u, -, h⟩ := bind_eq_done.1 h
  obtain ⟨p, w, -, h⟩ := bind_eq_done.1 h
  exact afterBars_ended h

theorem runVoices_engaged : ∀ (n : Nat) {s : State}, s.status.running = true →
    (runVoices n s).Ends (fun _ => Engaged) Engaged
  | 0, _, hrun => .inr (.inl hrun)
  | n + 1, s, hrun => by
    refine Act.Ends.bind (Q := fun o t => o = none → t.status = s.status)
      ((runVoice_ends s).mono (fun _ _ _ => id) fun _ => Raised.engaged) fun o t ht hstatus => ?_
    cases o with
    | some a => exact .inr (.inr (.inl (runVoice_ended ht)))
    | none => exact runVoices_engaged n (hstatus rfl ▸ hrun)

theorem startRun_engaged (h : startRun u = .next t) : Engaged t :=
  finish_engaged (runVoices_engaged _ rfl) h

/-- Every instruction but `coreReset` and the configuration, where it answers a next state, leaves the machine
engaged. -/
theorem exec_engaged (hreset : i ≠ .coreReset) (hi : configures i = false) (h : exec i s = .next t) : Engaged t := by
  cases hu : unitOperation i with
  | true => exact exec_unit_engaged hu h
  | false =>
    cases i with
    | coreReset => exact absurd rfl hreset
    | setMode _ | setTempo _ _ | setGapLen _ => cases hi
    | start | runDecoder | runTweak =>
      obtain ⟨_, _, h⟩ := run_next h
      exact startRun_engaged h
    | parseNotesBlock => exact parseNotesBlock_engaged h
    | parseTempoSubstitution => exact parseNotesBlock_engaged (execParseTempoSubstitution_next h)
    | parseBarsBlock =>
      exact finish_engaged (engaged_of_running (running_of_next h) (parseBars_sound s)) (execParseBarsBlock_next h).2.2
    | bin _ _ | blank _ => exact frameItem_engaged h
    | sep | tempo _ | note _ _ _ _ _ _ | index _ =>
      exact contentWord_engaged (running_of_next h) (exec_content rfl h).2
    | count n => exact count_engaged h
    | checksum c => exact checksum_engaged h
    | _ => cases hu

/-! ### Sequences up to a run -/

/-- A configuration operation leaves an engaged machine so. -/
theorem Engaged.configured (hs : Engaged s) (hi : configures i = true) (h : exec i s = .next t) : Engaged t := by
  obtain ⟨mode, en, ovr, n, hexec⟩ := exec_of_configures (s := s) hi
  obtain ⟨_, _, rfl⟩ := configure_next (hexec.symm.trans h)
  exact hs

/-- The configuration is no part of the reset values asked (R264). -/
theorem atReset.configured (h : atReset s) (mode : Mode) (en : Bool) (ovr : Tempo15) (n : Nat) :
    atReset (setResult .none { s with mode := mode, tempoEn := en, tempoOvr := ovr, gapLen := n }) := by
  unfold atReset at h ⊢
  rw [h]
  rfl

theorem execAll_cons_eq_next {is : List Instr} :
    execAll (i :: is) s = .next t ↔ ∃ u, exec i s = .next u ∧ execAll is u = .next t := by
  rw [execAll]
  cases exec i s <;> simp

/-- The three operations that start a run differ in the state their run begins with (R240, R241, R264). -/
theorem exec_run_eq (hi : i = .start ∨ i = .runDecoder ∨ i = .runTweak) (s : State) :
    ∃ u, exec i s = accept s (require (atReset s) .notAtReset (startRun u)) := by
  rcases hi with rfl | rfl | rfl <;> exact ⟨_, rfl⟩

section
variable (hi : i = .start ∨ i = .runDecoder ∨ i = .runTweak)
include hi

/-- An engaged machine accepts no run (R303; log 14). -/
theorem Engaged.exec_run_ne_next (hs : Engaged s) : exec i s ≠ .next t := by
  intro h
  obtain ⟨u, hu⟩ := exec_run_eq hi s
  obtain ⟨hr, ha, _⟩ := run_next (hu.symm.trans h)
  exact not_engaged_of_atReset hr ha hs

/-- Nor does it after any operations but `coreReset`. -/
theorem Engaged.execAll_run_ne_next {is : List Instr} (hs : Engaged s) (his : ∀ j ∈ is, j ≠ .coreReset) :
    execAll (is ++ [i]) s ≠ .next t := by
  induction is generalizing s with
  | nil =>
    intro h
    obtain ⟨u, hu, _⟩ := execAll_cons_eq_next.1 h
    exact hs.exec_run_ne_next hi hu
  | cons j is ih =>
    intro h
    obtain ⟨u, hu, h⟩ := execAll_cons_eq_next.1 h
    obtain ⟨hj, his⟩ := List.forall_mem_cons.1 his
    have hengaged : Engaged u := by
      cases hc : configures j with
      | true => exact hs.configured hc hu
      | false => exact exec_engaged hj hc hu
    exact ih hengaged his h

/-- After operations that are not all of the configuration no run is accepted (R303; log 14). -/
theorem execAll_run_ne_next {is : List Instr} (his : ∀ j ∈ is, j ≠ .coreReset)
    (hother : ∃ j ∈ is, configures j = false) : execAll (is ++ [i]) s ≠ .next t := by
  induction is generalizing s with
  | nil => simp at hother
  | cons j is ih =>
    intro h
    obtain ⟨u, hu, h⟩ := execAll_cons_eq_next.1 h
    obtain ⟨hj, his⟩ := List.forall_mem_cons.1 his
    cases hc : configures j with
    | true => exact ih his (by simpa [hc] using hother) h
    | false => exact (exec_engaged hj hc hu).execAll_run_ne_next hi his h

/-- From reset apart from the configuration a run answers a next state (R264). -/
theorem exec_run_answers (hr : Ready s) (ha : atReset s) : ∃ t, exec i s = .next t := by
  obtain ⟨u, hu⟩ := exec_run_eq hi s
  rw [hu, accept_of_ready _ hr.1 hr.2, require_of _ _ ha]
  cases hrun : startRun u with
  | next t => exact ⟨t, rfl⟩
  | fault f => exact absurd hrun (startRun_ne_fault u f)
  | refused r => exact absurd hrun finish_ne_refused

/-- So it does after any operations of the configuration (R303, R304). -/
theorem execAll_run_answers {is : List Instr} (hr : Ready s) (ha : atReset s) (his : ∀ j ∈ is, configures j = true) :
    ∃ t, execAll (is ++ [i]) s = .next t := by
  induction is generalizing s with
  | nil =>
    obtain ⟨t, ht⟩ := exec_run_answers hi hr ha
    exact ⟨t, execAll_cons_eq_next.2 ⟨t, ht, rfl⟩⟩
  | cons j is ih =>
    obtain ⟨hj, his⟩ := List.forall_mem_cons.1 his
    obtain ⟨mode, en, ovr, n, hexec⟩ := exec_of_configures (s := s) hj
    rw [configure_of_idle hr (atReset_not_running ha)] at hexec
    obtain ⟨t, ht⟩ := ih (s := setResult .none { s with mode := mode, tempoEn := en, tempoOvr := ovr, gapLen := n }) hr
      (ha.configured mode en ovr n) his
    exact ⟨t, execAll_cons_eq_next.2 ⟨_, hexec, ht⟩⟩

end

end Sys2Proof.Machine

/-! SUPPORT. The statements about the configuration operations and about what a run starts from. -/

namespace Sys2Proof.Proofs

open Sys2Proof.Machine

/-- Settles O4: the three operations differ in what they write. -/
theorem configurationOperationsWriteTheirRegister : Obligations.ConfigurationOperationsWriteTheirRegister := by
  intro s m en t n hr
  exact ⟨fun hidle => ⟨configure_of_idle hr hidle _, configure_of_idle hr hidle _, configure_of_idle hr hidle _⟩,
    fun hrun => ⟨configure_of_running hr hrun _, configure_of_running hr hrun _, configure_of_running hr hrun _⟩⟩

/-- Settles O49: what is not the configuration leaves the machine engaged until the next `coreReset`. -/
theorem runsStartFromReset : Obligations.RunsStartFromReset := by
  intro s i hi
  refine ⟨fun hr ha => ?_, fun is his hother t h => ?_, fun is his => ?_⟩
  · obtain ⟨u, hu⟩ := exec_run_eq hi s
    rw [hu, accept_of_ready _ hr.1 hr.2, require_of_not _ _ ha]
  · obtain ⟨u, _, h⟩ := execAll_cons_eq_next.1 h
    exact execAll_run_ne_next hi his hother h
  · obtain ⟨t, ht⟩ := execAll_run_answers hi (s := resetRegisters s) ⟨rfl, rfl⟩ rfl his
    exact ⟨t, execAll_cons_eq_next.2 ⟨_, rfl, ht⟩⟩

end Sys2Proof.Proofs

/-! SUPPORT. The record of a fault: whatever part of an operation raises one, `FINFO` names a word of the tape and a voice
(R280). That it names a block, and what fault entry leaves in the other registers, is `Raised`. -/

namespace Sys2Proof.Machine

variable {α β : Type}

/-- Where the part raises a fault, `FINFO` holds a word index and a voice (R280). -/
abbrev Located (x : Act α) : Prop :=
  x.Ends (fun _ _ => True) fun t => t.finfo.widx.isSome = true ∧ t.finfo.voice.isSome = true

theorem located_done (a : α) (s : State) : Located (.done a s) := trivial

theorem located_raise {k : FaultKind} {info : FInfo} {s : State} (hw : info.widx.isSome = true)
    (hv : info.voice.isSome = true) : Located (.raised (raise k info s) : Act α) := ⟨hw, hv⟩

theorem located_bind {x : Act α} {f : α → State → Act β} (hx : Located x) (hf : ∀ a t, Located (f a t)) :
    Located (x.bind f) :=
  hx.bind fun a t _ _ => hf a t

/-! ### FU, CS and NC -/

theorem fuFrame_located (f : Frame) (s : State) : Located (fuFrame f s) := by
  by_cases hf : isBinary f = true
  · by_cases h2 : s.fcnt = 2#2
    · rw [fuFrame_last hf h2]
      exact located_done _ _
    · rw [fuFrame_part hf h2]
      exact located_done _ _
  · have hf : isBinary f = false := by simpa using hf
    by_cases h0 : s.fcnt = 0#2
    · rw [fuFrame_blank hf h0]
      exact located_done _ _
    · rw [fuFrame_inner_blank hf h0]
      exact located_raise rfl rfl

theorem fuAtEnd_located (s : State) : Located (fuAtEnd s) := by
  by_cases h0 : s.fcnt = 0#2
  · rw [fuAtEnd_between h0]
    exact located_done _ _
  · rw [fuAtEnd_inside h0]
    exact located_raise rfl rfl

theorem readFrames_located : ∀ (fs : List Frame) (s : State), Located (readFrames fs s)
  | [], s => located_bind (fuAtEnd_located s) fun _ t => located_done _ t
  | f :: fs, s => located_bind (fuFrame_located f (passFrame s)) fun r t =>
    match r with
    | some _ => located_done _ t
    | none => readFrames_located fs t

theorem fuRead_located (s : State) : Located (fuRead s) := readFrames_located _ s

theorem readBlockWord_located (s : State) : Located (readBlockWord s) :=
  located_bind (fuRead_located s) fun r t =>
    match r with
    | .word _ _ => located_done _ t
    | .endOfStream _ => located_raise rfl rfl

theorem csVerify_located (e c : Word) (j : Nat) (s : State) : Located (csVerify e c (some j) s) := by
  rw [csVerify_eq]
  split
  · exact located_done _ s
  · exact located_raise rfl rfl

theorem nameArticulation_located (c : BitVec 4) (j : Nat) (w : Option Word) (s : State) :
    Located (nameArticulation c (some j) w s) := by
  rw [nameArticulation_eq]
  split
  · exact located_done _ s
  · exact located_raise rfl rfl

/-! ### The words of a block -/

theorem noteContent_located (w : Word) (i j : Nat) (s : State) : Located (noteContent w i j s) := by
  unfold noteContent
  split
  · exact located_done _ _
  · exact located_done _ _
  · exact located_bind (nameArticulation_located _ j _ s) fun _ t => located_done _ _

theorem takeNotesContent_located (w : Word) (j : Nat) (s : State) : Located (takeNotesContent w j s) :=
  located_bind (noteContent_located w _ j _) fun _ _ => located_done _ _

theorem takeNotesChecksum_located (c : Word) (j : Nat) (s : State) : Located (takeNotesChecksum c j s) :=
  located_bind (csVerify_located c _ j s) fun _ _ => located_done _ _

theorem takeBarsCount_located (n : Word) (g j : Nat) (s : State) : Located (takeBarsCount n g j s) := by
  unfold takeBarsCount
  split
  · exact located_raise rfl rfl
  · exact located_done _ _

theorem barContent_located (w : Word) (i j : Nat) (s : State) : Located (barContent w i j s) := by
  unfold barContent
  split
  · exact located_done _ _
  · split
    · exact located_raise rfl rfl
    · split
      · exact located_done _ _
      · trivial

theorem takeBarsContent_located (w : Word) (j : Nat) (s : State) : Located (takeBarsContent w j s) :=
  located_bind (barContent_located w _ j _) fun _ _ => located_done _ _

theorem takeBarsChecksum_located (c : Word) (j : Nat) (s : State) : Located (takeBarsChecksum c j s) :=
  located_bind (csVerify_located c _ j s) fun _ t => by
    split
    · exact located_raise rfl rfl
    · exact located_done _ _

/-! ### Blocks and runs -/

theorem blockTail_located {take : Word → Nat → State → Act Unit} {close : Word → Nat → State → Act α}
    (ht : ∀ w j s, Located (take w j s)) (hc : ∀ w j s, Located (close w j s)) :
    ∀ (n : Nat) (s : State), Located (blockTail take close n s)
  | 0, s => located_bind (readBlockWord_located s) fun c t => hc c.w c.j t
  | n + 1, s => located_bind (readBlockWord_located s) fun r t =>
    located_bind (ht r.w r.j t) fun _ u => blockTail_located ht hc n u

theorem parseNotes_located (s : State) : Located (parseNotes s) := by
  rw [parseNotes_eq]
  exact located_bind (readBlockWord_located _) fun _ _ =>
    blockTail_located takeNotesContent_located takeNotesChecksum_located _ _

theorem parseBars_located (s : State) : Located (parseBars s) := by
  rw [parseBars_eq]
  exact located_bind (readBlockWord_located _) fun r t => located_bind (takeBarsCount_located r.w r.g r.j t) fun _ _ =>
    blockTail_located takeBarsContent_located takeBarsChecksum_located _ _

theorem afterBars_located (p : Bool × Nat) (s : State) : Located (afterBars p s) := by
  unfold afterBars
  split
  · split
    · exact located_raise rfl rfl
    · exact located_done _ _
  · exact located_bind (fuRead_located s) fun _ _ => located_done _ _

theorem runVoice_located (s : State) : Located (runVoice s) :=
  located_bind (parseNotes_located s) fun _ t => located_bind (parseBars_located t) afterBars_located

theorem runVoices_located : ∀ (n : Nat) (s : State), Located (runVoices n s)
  | 0, s => located_done _ s
  | n + 1, s => located_bind (runVoice_located s) fun o t =>
    match o with
    | some _ => located_done _ t
    | none => runVoices_located n t

end Sys2Proof.Machine

/-! SUPPORT. How an instruction ends: with no fault, or in the one shape of fault entry (R281); and how a run from reset ends:
at the end of the tape or in that shape (R290). -/

namespace Sys2Proof.Machine

variable {α : Type} {s t u : State} {x : Act α}

/-! ### The shape of fault entry -/

/-- What an operation that faults leaves in the registers R281 defines, with its outcome (R280, R281). -/
structure FaultLeft (t : State) : Prop where
  code : 1 ≤ t.fault.toNat ∧ t.fault.toNat ≤ 7
  seq : t.seq = .faulted
  status : t.status = { running := false, done := false, outValid := false }
  widx : t.finfo.widx.isSome = true
  blk : t.finfo.blk.isSome = true
  voice : t.finfo.voice.isSome = true
  result : t.result = .fault t.fault t.finfo

theorem FaultLeft.fault_ne_zero (h : FaultLeft t) : t.fault ≠ 0#4 := fun h0 =>
  absurd h.code.1 (by simp [h0])

/-- The flags of a state in which an operation may fault: no fault is held, the run has not ended, `OUT_VALID` is clear. -/
structure Unended (s : State) : Prop where
  ready : Ready s
  outValid : s.status.outValid = false

/-- A fault raised after such flags and delivered has that shape. -/
theorem Unended.faultLeft (hs : Unended s) (hx : x = .raised u) (hr : Raised s u) (hl : Located x) :
    FaultLeft (faultResult u) := by
  obtain ⟨hwidx, hvoice⟩ := hl.of_raised hx
  exact
    { code := hr.fault
      seq := hr.seq
      status := by simp [hr.status, hs.ready.2, hs.outValid]
      widx := hwidx
      blk := hr.finfo
      voice := hvoice
      result := rfl }

/-- An instruction has ended with no fault or in that shape. -/
abbrev EndsUniformly (t : State) : Prop := t.fault = 0#4 ∨ FaultLeft t

/-- An operation whose body leaves `FAULT` alone or raises a fault. -/
theorem Unended.finish {f : α → Result} (hs : Unended s) (hx : x.Ends (fun _ t => t.fault = s.fault) (Raised s))
    (hl : Located x) (h : finish f x = .next t) : EndsUniformly t := by
  rcases finish_eq_next.1 h with ⟨a, u, hu, rfl⟩ | ⟨u, hu, rfl⟩
  · exact .inl ((hx.of_done hu).trans hs.ready.1)
  · exact .inr (hs.faultLeft hu (hx.of_raised hu) hl)

theorem Sound.leavesFault (h : Sound s x) : x.Ends (fun _ t => t.fault = s.fault) (Raised s) :=
  h.mono (fun _ _ _ hq => congrArg FlagRegs.fault hq.flags) fun _ => id

theorem fuFrame_leavesFault (f : Frame) (s : State) :
    (fuFrame f s).Ends (fun _ t => t.fault = s.fault) (Raised s) :=
  (fuFrame_steady f s).mono (fun _ _ hx _ => by rw [fuFrame_onlyFu hx]) fun _ => id

/-! ### The operations of the units -/

theorem acceptUnit_uniform {k : State → Out} (hout : s.status.outValid = false) (h : acceptUnit s k = .next t)
    (hk : Unended (drive s) → k (drive s) = .next t → EndsUniformly t) : EndsUniformly t := by
  obtain ⟨hf, hd, h⟩ := acceptUnit_eq_next.1 h
  exact hk ⟨⟨hf, hd⟩, hout⟩ h

/-- A body that only puts a result in place raises nothing. -/
theorem setResult_uniform {r : Result} (hu : u.fault = 0#4) (h : (.next (setResult r u) : Out) = .next t) :
    EndsUniformly t := by
  injection h with h
  exact .inl (h ▸ hu)

theorem frameItem_uniform {f : Frame} (hout : s.status.outValid = false)
    (h : acceptUnit s (fun s => finish frameResult (fuFrame f s)) = .next t) : EndsUniformly t :=
  acceptUnit_uniform hout h fun hs => hs.finish (fuFrame_leavesFault f _) (fuFrame_located f _)

/-- Drawing a free value (log 15) is quiet. -/
theorem quiet_drawUnless (c : Prop) [Decidable c] (s : State) :
    Quiet s (if c then s else { s with freeDraws := s.freeDraws + 1 }) := by
  split <;> exact .of_regs rfl rfl rfl

theorem exec_unit_uniform {i : Instr} (hout : s.status.outValid = false) (hi : unitOperation i = true)
    (h : exec i s = .next t) : EndsUniformly t := by
  unfold exec at h
  cases i with
  | fuStep =>
    refine acceptUnit_uniform hout h fun hs h => ?_
    split at h
    · exact Unended.finish (s := passFrame (drive s)) ⟨hs.ready, hs.outValid⟩ (fuFrame_leavesFault _ _)
        (fuFrame_located _ _) h
    · cases h
  | fuEnd =>
    refine acceptUnit_uniform hout h fun hs h => ?_
    split at h
    · cases h
    · exact hs.finish (fuAtEnd_sound (List.getElem?_eq_none_iff.1 ‹_›)).leavesFault (fuAtEnd_located _) h
  | readWord =>
    refine acceptUnit_uniform hout h fun hs h => ?_
    obtain ⟨_, h⟩ := require_eq_next.1 h
    obtain ⟨_, h⟩ := require_eq_next.1 h
    exact hs.finish (fuRead_sound _).leavesFault (fuRead_located _) h
  | verify e c =>
    exact acceptUnit_uniform hout h fun hs =>
      hs.finish ((quiet_drawUnless _ _).sound (csVerify_sound e c _ _)).leavesFault (csVerify_located e c _ _)
  | articulationName c =>
    exact acceptUnit_uniform hout h fun hs =>
      hs.finish ((quiet_drawUnless _ _).sound (nameArticulation_sound c _ _ _)).leavesFault
        (nameArticulation_located c _ _ _)
  | barSlice k =>
    refine acceptUnit_uniform hout h fun hs h => ?_
    obtain ⟨_, h⟩ := require_eq_next.1 h
    split at h
    · exact setResult_uniform hs.ready.1 h
    · cases h
  | peekGap =>
    exact acceptUnit_uniform hout h fun hs h => setResult_uniform hs.ready.1 (require_eq_next.1 h).2
  | writeWord w =>
    exact acceptUnit_uniform hout h fun hs h =>
      setResult_uniform (u := putWord w (drive s)) hs.ready.1 (require_eq_next.1 h).2
  | writeGap n =>
    exact acceptUnit_uniform hout h fun hs h =>
      setResult_uniform (u := putGap n (drive s)) hs.ready.1 (require_eq_next.1 h).2
  | decodeFrame _ _ _ | add _ _ | classify _ | decode _ | pitchInfo _ | decodeTempo _ | encodeTempo _
  | encodeNote _ _ _ _ _ | encodeFrame _ =>
    exact acceptUnit_uniform hout h fun hs => setResult_uniform hs.ready.1
  | _ => cases hi

/-! ### The block operations and their words -/

theorem parseNotesBlock_uniform (hout : s.status.outValid = false) (h : execParseNotesBlock s = .next t) :
    EndsUniformly t := by
  obtain ⟨hr, h⟩ := execParseNotesBlock_next h
  exact Unended.finish ⟨hr, hout⟩ (parseNotes_sound s).leavesFault (parseNotes_located s) h

theorem contentWord_uniform {w : Word} (hs : Unended s) (h : contentWord w s = .next t) : EndsUniformly t := by
  rcases contentWord_next h with ⟨_, h⟩ | ⟨_, h⟩
  · exact hs.finish (takeNotesContent_sound w _ s).leavesFault (takeNotesContent_located w _ s) h
  · exact hs.finish (takeBarsContent_sound w _ s).leavesFault (takeBarsContent_located w _ s) h

theorem count_uniform {n : Word} (hout : s.status.outValid = false) (h : execCount n s = .next t) :
    EndsUniformly t := by
  obtain ⟨hr, rfl | ⟨_, h⟩⟩ := execCount_next h
  · have hq : Quiet s _ := (quiet_beginNotes s).trans (quiet_takeNotesCount n s.wordGap _)
    exact .inl ((congrArg FlagRegs.fault hq.flags).trans hr.1)
  · exact Unended.finish (s := beginBars s) ⟨hr, hout⟩ (takeBarsCount_sound n _ _ _).leavesFault
      (takeBarsCount_located n _ _ _) h

theorem checksum_uniform {c : Word} (hout : s.status.outValid = false) (h : execChecksum c s = .next t) :
    EndsUniformly t := by
  obtain ⟨hr, ⟨_, h⟩ | ⟨_, h⟩⟩ := execChecksum_next h
  · exact Unended.finish ⟨hr, hout⟩ (takeNotesChecksum_sound c _ s).leavesFault (takeNotesChecksum_located c _ s) h
  · exact Unended.finish ⟨hr, hout⟩ (takeBarsChecksum_sound c _ s).leavesFault (takeBarsChecksum_located c _ s) h

/-! ### Runs -/

/-- A fault raised after steady work that leaves the flags alone is a fault raised by the whole. -/
theorem Steady.raised (h : Steady s t) (hstatus : t.status = s.status) (hr : Raised t u) : Raised s u :=
  { hr with
    toSteady := h.trans hr.toSteady
    status := hstatus ▸ hr.status }

/-- A run that faults has raised its fault with the flags as they were (R281). -/
theorem runVoices_raised : ∀ (n : Nat) (s : State), (runVoices n s).Ends (fun _ _ => True) (Raised s)
  | 0, _ => trivial
  | n + 1, s => (runVoice_ends s).bind fun o t hx ht =>
    match o with
    | some _ => trivial
    | none => (runVoices_raised n t).mono (fun _ _ _ => id)
      fun _ => ((runVoice_steady s).of_done hx : Steady s t).raised (ht rfl)

/-- A pass of the loop ends the run, or it is not that of the last voice and the next voice is due (R232). -/
theorem VoiceDue.runVoice_next {n : Nat} {fs : List Frame} {o : Option (BitVec 3)} (h : VoiceDue n fs s)
    (hx : runVoice s = .done o t) :
    (∃ a, o = some a ∧ t.status.done = true) ∨ (o = none ∧ s.voice ≠ lastVoice ∧ ∃ rest, VoiceDue (n + 1) rest t) := by
  cases o with
  | some a => exact .inl ⟨a, rfl, runVoice_ended hx⟩
  | none =>
    obtain ⟨x, rest, rfl, hok⟩ := runVoice_done h.toAhead h.noGap hx
    rw [runVoice_of_ok h.toAhead h.noGap hok] at hx
    obtain ⟨hlast, rfl⟩ := afterBars_goesOn hx
    exact .inr ⟨rfl, hlast, rest, h.voicePassed _⟩

/-- A run with passes enough for the voices up to the last one completes only with `DONE` set (R232). -/
theorem VoiceDue.runVoices_ended {n k : Nat} {fs : List Frame} {a : BitVec 3} (h : VoiceDue n fs s) (hn : n ≤ 4)
    (hk : 4 < n + k) (hx : runVoices k s = .done a t) : t.status.done = true := by
  induction k generalizing n s fs with
  | zero => omega
  | succ k ih =>
    obtain ⟨o, u, hvoice, hx⟩ := bind_eq_done.1 hx
    rcases h.runVoice_next hvoice with ⟨_, rfl, hdone⟩ | ⟨rfl, hlast, rest, hnext⟩
    · cases hx
      exact hdone
    · have hne : n ≠ 4 := by
        rintro rfl
        exact hlast h.voice
      exact ih hnext (by omega) (by omega) hx

/-- What a run that comes to the end of the tape leaves of the flags (R51, R232). -/
structure RunCompleted (t : State) : Prop where
  fault : t.fault = 0#4
  status : t.status = { running := false, done := true, outValid := decide (t.mode = .tweak) }

/-- A run from reset, on any tape, comes to the end of the tape or ends in a fault (R264, R290). -/
theorem startRun_outcome (ha : atReset s) (h : startRun s = .next t) : RunCompleted t ∨ FaultLeft t := by
  have hs : Unended (setRunning s) := by
    rw [ha]
    exact ⟨⟨rfl, rfl⟩, rfl⟩
  rcases finish_eq_next.1 h with ⟨a, u, hu, ht⟩ | ⟨u, hu, rfl⟩
  · have hended : u.status.done = true := (voiceDue_of_atReset ha).runVoices_ended (by decide) (by decide) hu
    obtain ⟨init, v, final, -, -, -, rfl⟩ := startRun_done ha h (ht ▸ hended)
    exact .inl ⟨hs.ready.1, rfl⟩
  · exact .inr (hs.faultLeft hu ((runVoices_raised _ _).of_raised hu) (runVoices_located _ _))

theorem run_outcome {i : Instr} (hi : i = .start ∨ i = .runDecoder ∨ i = .runTweak) (h : exec i s = .next t) :
    RunCompleted t ∨ FaultLeft t := by
  rcases hi with rfl | rfl | rfl <;> obtain ⟨_, ha, h⟩ := run_next h
  · exact startRun_outcome ha h
  · exact startRun_outcome (ha.congr .decode s.tape) h
  · exact startRun_outcome (ha.congr .tweak s.tape) h

/-! ### Every instruction -/

/-- Whatever instruction is executed, it ends with no fault or in the shape of fault entry (R281). -/
theorem exec_uniform {i : Instr} (hout : s.status.outValid = false) (h : exec i s = .next t) : EndsUniformly t := by
  cases hu : unitOperation i with
  | true => exact exec_unit_uniform hout hu h
  | false =>
    cases i with
    | coreReset =>
      cases h
      exact .inl rfl
    | setMode _ | setTempo _ _ | setGapLen _ =>
      obtain ⟨hr, _, rfl⟩ := configure_next h
      exact .inl hr.1
    | start | runDecoder | runTweak => exact (run_outcome (by simp) h).imp_left RunCompleted.fault
    | parseNotesBlock => exact parseNotesBlock_uniform hout h
    | parseTempoSubstitution => exact parseNotesBlock_uniform hout (execParseTempoSubstitution_next h)
    | parseBarsBlock =>
      obtain ⟨hr, _, h⟩ := execParseBarsBlock_next h
      exact Unended.finish ⟨hr, hout⟩ (parseBars_sound s).leavesFault (parseBars_located s) h
    | bin _ _ | blank _ => exact frameItem_uniform hout h
    | sep | tempo _ | note _ _ _ _ _ _ | index _ =>
      obtain ⟨hr, h⟩ := exec_content rfl h
      exact contentWord_uniform ⟨hr, hout⟩ h
    | count n => exact count_uniform hout h
    | checksum c => exact checksum_uniform hout h
    | _ => cases hu

end Sys2Proof.Machine

/-! SUPPORT. The statements about faults: a wrong checksum word, the end of a run, the shape of fault entry. -/

namespace Sys2Proof.Proofs

open Sys2Proof.Machine

/-- Settles O31: the content words are read, taken and summed, and the checksum word is compared with their sum. -/
theorem wrongChecksumIsRaised : Obligations.WrongChecksumIsRaised := by
  intro s ns b rest hr hout hrun hc hg ht hcount hne
  have ha := ahead_words ⟨hc, ht⟩
  refine ⟨fun hseq hl => ?_, fun hseq hvalid hsmall hlen hcells hgap hok => ?_⟩
  · refine NotesDue.raises ⟨hr, hrun, hseq, hc⟩ hout ?_
    rw [parseNotes_after ha (n := 0) hcount.toNat hl, blockTail_check (fresh_notesAfter ha).toAhead]
    exact takeNotesChecksum_raises (s := takeWord b.check (notesAfter b.count b.content s)) hne _
  · refine BarsDue.raises ⟨hr, hrun, hseq, hvalid, hc⟩ hout ?_
    rw [parseBars_after ha ⟨hsmall, hlen, hcells⟩ hgap (n := 0) hcount.toNat hok,
      blockTail_check (fresh_barsAfter ha ns).toAhead]
    exact takeBarsChecksum_raises (s := takeWord b.check (barsAfter ns b.count b.content s)) hne _

/-- Settles O43: four passes are enough for every tape, so a run that does not fault sets `DONE`. -/
theorem runEndsInExactlyOneOutcome : Obligations.RunEndsInExactlyOneOutcome := by
  intro s i hr ha hi
  obtain ⟨t, ht⟩ := exec_run_answers hi hr ha
  refine ⟨t, ht, ?_⟩
  rcases run_outcome hi ht with ⟨hfault, hstatus⟩ | hleft
  · simp [hfault, hstatus]
  · simp [hleft.fault_ne_zero, hleft.status]

/-- Settles O47: every fault goes through the one fault entry, with a record that names word, block and voice. -/
theorem faultEntryIsUniform : Obligations.FaultEntryIsUniform := by
  intro i s t _ hout h hfault
  obtain ⟨⟨hlow, hhigh⟩, hseq, hstatus, hwidx, hblk, hvoice, hresult⟩ := (exec_uniform hout h).resolve_left hfault
  exact ⟨hlow, hhigh, hseq, hstatus, hwidx, hblk, hvoice, hresult⟩

end Sys2Proof.Proofs

/-! SUPPORT. What a sequence of configuration operations leaves in the configuration (R304). -/

namespace Sys2Proof.Machine

variable {α : Type} {s : State} {i : Instr}

/-! ### The last value written -/

@[simp] theorem lastSet_nil (f : Instr → Option α) : lastSet f [] = none := rfl

/-- The last value written stands over what the first operation leaves of the old value. -/
theorem lastSet_cons_getD (f : Instr → Option α) (i : Instr) (is : List Instr) (a : α) :
    (lastSet f (i :: is)).getD a = (lastSet f is).getD ((f i).getD a) := by
  unfold lastSet
  cases hf : f i with
  | none => rw [List.filterMap_cons_none hf, Option.getD_none]
  | some b => rw [List.filterMap_cons_some hf, List.getLast?_cons, Option.getD_some, Option.getD_some]

/-! ### The state after a sequence of configuration operations -/

/-- `s` with the last value that `is` writes in each register of the configuration, and the result `r`. -/
def configuredBy (is : List Instr) (r : Result) (s : State) : State :=
  { s with
    mode := (lastSet modeSet is).getD s.mode
    tempoEn := ((lastSet tempoSet is).getD (s.tempoEn, s.tempoOvr)).1
    tempoOvr := ((lastSet tempoSet is).getD (s.tempoEn, s.tempoOvr)).2
    gapLen := (lastSet gapLenSet is).getD s.gapLen
    result := r }

theorem configuredBy_nil (s : State) : configuredBy [] s.result s = s := rfl

/-- The last values of a sequence, written over those of its first operation, are the last values of the whole. -/
theorem configuredBy_cons (i : Instr) (is : List Instr) (q r : Result) (s : State) :
    configuredBy is r (configuredBy [i] q s) = configuredBy (i :: is) r s := by
  simp [configuredBy, lastSet_cons_getD]

/-- A configuration operation before a run writes what `modeSet`, `tempoSet` and `gapLenSet` say of it (R261 to R263). -/
theorem exec_configuredBy (hi : configures i = true) (hr : Ready s) (hidle : s.status.running = false) :
    exec i s = .next (configuredBy [i] .none s) := by
  cases i with
  | setMode _ | setTempo _ _ | setGapLen _ => exact configure_of_idle hr hidle _
  | _ => cases hi

/-- Configuration operations before a run all complete, each where the one before it left the machine ready (R304). -/
theorem execAll_configuredBy {is : List Instr} (his : ∀ i ∈ is, configures i = true) (hr : Ready s)
    (hidle : s.status.running = false) : ∃ r, execAll is s = .next (configuredBy is r s) := by
  induction is generalizing s with
  | nil => exact ⟨s.result, by rw [configuredBy_nil, execAll]⟩
  | cons i is ih =>
    obtain ⟨hi, his⟩ := List.forall_mem_cons.1 his
    obtain ⟨r, hrest⟩ := ih (s := configuredBy [i] .none s) his hr hidle
    rw [configuredBy_cons] at hrest
    exact ⟨r, execAll_cons_eq_next.2 ⟨_, exec_configuredBy hi hr hidle, hrest⟩⟩

end Sys2Proof.Machine

/-! SUPPORT. The statements about the model's own fields under `coreReset` and about sequences of configuration. -/

namespace Sys2Proof.Proofs

open Sys2Proof.Machine

/-- Settles O2: the model's own fields are those `resetRegisters` carries over (log 16). -/
theorem coreResetKeepsTheModelsOwnFields : Obligations.CoreResetKeepsTheModelsOwnFields := fun _ => rfl

/-- Settles O5: by induction on the operations (`execAll_configuredBy`), the state left is `configuredBy`. -/
theorem lastConfigurationWriteWins : Obligations.LastConfigurationWriteWins := by
  intro is s his hr hidle
  obtain ⟨r, hexec⟩ := execAll_configuredBy his hr hidle
  exact ⟨configuredBy is r s, hexec, rfl, rfl, rfl, rfl⟩

end Sys2Proof.Proofs
